-- ==== Sys2Proof/Word.lean ====
section
/-! DEFINITION. The command word, the byte of a host adapter, one bit from a flag, and the name of a debouncer instance. -/

namespace Sys2Proof

/-- A command word, `CMD[63:0]` (R90). -/
abbrev Word := BitVec 64

/-- A byte of a byte-wide host adapter (R75). -/
abbrev Byte := BitVec 8

/-- The value of a read-port register, `RDATA[31:0]` (R70). -/
abbrev RData := BitVec 32

/-- A flag as the one bit that holds it. -/
abbrev bit (b : Bool) : BitVec 1 := BitVec.ofBool b

/-- The two debouncer instances, DRV = 0 (drive switch) and SDC = 1 (shutdown-circuit sense) (R32). -/
inductive DebSel where
  | drv
  | sdc
  deriving DecidableEq, Repr

/-- The instance that a SEL bit names (R95). -/
def DebSel.ofBit (b : Bool) : DebSel :=
  if b then .sdc else .drv

/-- The SEL bit that names an instance (R95). -/
def DebSel.toBit (i : DebSel) : Bool :=
  match i with
  | .drv => false
  | .sdc => true

end Sys2Proof
end

