-- ==== Sys2Proof/Syntax.lean ====
section
/-! DEFINITION. The nine commands of the command set (R92), one constructor per row of spec/opcode_table.json. -/

namespace Sys2Proof

/-- A legal command with its operands. An operand is exactly as wide as its field (R94 to R99), so every
term is a command that some word encodes. -/
inductive Instr where
  /-- NOP (R210) -/
  | nop
  /-- CYCLE: DRV, SDC, BATT, SB, SA (R94, R177) -/
  | cycle (drv sdc : Bool) (batt sb sa : BitVec 16)
  /-- DEB_UPDATE: SEL, RAW (R95, R111) -/
  | debUpdate (sel : DebSel) (raw : Bool)
  /-- DEB_RESET: SEL (R95, R112) -/
  | debReset (sel : DebSel)
  /-- ACC_SET: SB, SA (R96, R129) -/
  | accSet (sb sa : BitVec 16)
  /-- WD_HEARTBEAT: ID (R97, R151) -/
  | wdHeartbeat (id : BitVec 29)
  /-- WD_SEND_RESULT: S, 1 = the transmit succeeded (R98, R152) -/
  | wdSendResult (success : Bool)
  /-- TICK (R153) -/
  | tick
  /-- SEQ_RESET (R178) -/
  | seqReset
  deriving DecidableEq, Repr

end Sys2Proof
end

