-- ==== Sys2Proof/Decode.lean ====
section
/-! DEFINITION. The decoder of R105, total on every word and rejecting by name; the encoder, from the formats R93 to R98; the
rows of spec/opcode_table.json; the byte order of a host adapter (R75). -/

namespace Sys2Proof

/-- Why a word is illegal (R100). Either carries the opcode field, which IllegalCommand captures (R105, R212). -/
inductive DecodeError where
  /-- R100 (a): `OP` is 0x9 to 0xF -/
  | reservedOpcode (op : BitVec 4)
  /-- R100 (b): a reserved bit of the opcode's format is 1 -/
  | reservedBits (op : BitVec 4)
  deriving DecidableEq, Repr

/-- The opcode field an illegal word carries into R212. -/
def DecodeError.op (x : DecodeError) : BitVec 4 :=
  match x with
  | .reservedOpcode op => op
  | .reservedBits op => op

/-- `CMD[lo+n-1:lo]`. -/
def field (w : Word) (lo n : Nat) : BitVec n :=
  w.extractLsb' lo n

/-- `CMD[k]`. -/
def flagAt (w : Word) (k : Nat) : Bool :=
  w.getLsbD k

/-- `OP = CMD[63:60]` (R91). -/
def opcodeOf (w : Word) : BitVec 4 :=
  field w 60 4

/-- The command, if the format's reserved bits are all 0; otherwise illegal (R100 (b)). -/
def ifReservedZero (w : Word) (reservedZero : Bool) (i : Instr) : Except DecodeError Instr :=
  if reservedZero then .ok i else .error (.reservedBits (opcodeOf w))

/-- The decoder (R105), case by case on the opcode. -/
def decode (w : Word) : Except DecodeError Instr :=
  match (opcodeOf w).toNat with
  | 0 => ifReservedZero w (field w 0 60 == 0) .nop
  | 1 => ifReservedZero w (field w 52 8 == 0 && field w 48 2 == 0)
      (.cycle (flagAt w 51) (flagAt w 50) (field w 32 16) (field w 16 16) (field w 0 16))
  | 2 => ifReservedZero w (field w 9 51 == 0 && field w 1 7 == 0)
      (.debUpdate (DebSel.ofBit (flagAt w 8)) (flagAt w 0))
  | 3 => ifReservedZero w (field w 9 51 == 0 && field w 0 8 == 0) (.debReset (DebSel.ofBit (flagAt w 8)))
  | 4 => ifReservedZero w (field w 32 28 == 0) (.accSet (field w 16 16) (field w 0 16))
  | 5 => ifReservedZero w (field w 29 31 == 0) (.wdHeartbeat (field w 0 29))
  | 6 => ifReservedZero w (field w 1 59 == 0) (.wdSendResult (flagAt w 0))
  | 7 => ifReservedZero w (field w 0 60 == 0) .tick
  | 8 => ifReservedZero w (field w 0 60 == 0) .seqReset
  | _ => .error (.reservedOpcode (opcodeOf w))

/-- The word of a command: its format's fields from bit 63 down to bit 0, reserved bits 0 (R93 to R98). -/
def encode (i : Instr) : Word :=
  match i with
  | .nop => 0x0#4 ++ 0#60
  | .cycle drv sdc batt sb sa => 0x1#4 ++ 0#8 ++ bit drv ++ bit sdc ++ 0#2 ++ batt ++ sb ++ sa
  | .debUpdate sel raw => 0x2#4 ++ 0#51 ++ bit sel.toBit ++ 0#7 ++ bit raw
  | .debReset sel => 0x3#4 ++ 0#51 ++ bit sel.toBit ++ 0#8
  | .accSet sb sa => 0x4#4 ++ 0#28 ++ sb ++ sa
  | .wdHeartbeat id => 0x5#4 ++ 0#31 ++ id
  | .wdSendResult success => 0x6#4 ++ 0#59 ++ bit success
  | .tick => 0x7#4 ++ 0#60
  | .seqReset => 0x8#4 ++ 0#60

/-- One row of spec/opcode_table.json: a word is the row's when its bits under `mask` are `pattern`. -/
structure OpcodeRow where
  mnemonic : String
  pattern : Word
  mask : Word
  deriving DecidableEq, Repr

/-- spec/opcode_table.json, in its order. -/
def opcodeTable : List OpcodeRow :=
  [⟨"NOP", 0x0000000000000000#64, 0xFFFFFFFFFFFFFFFF#64⟩,
   ⟨"CYCLE", 0x1000000000000000#64, 0xFFF3000000000000#64⟩,
   ⟨"DEB_UPDATE", 0x2000000000000000#64, 0xFFFFFFFFFFFFFEFE#64⟩,
   ⟨"DEB_RESET", 0x3000000000000000#64, 0xFFFFFFFFFFFFFEFF#64⟩,
   ⟨"ACC_SET", 0x4000000000000000#64, 0xFFFFFFFF00000000#64⟩,
   ⟨"WD_HEARTBEAT", 0x5000000000000000#64, 0xFFFFFFFFE0000000#64⟩,
   ⟨"WD_SEND_RESULT", 0x6000000000000000#64, 0xFFFFFFFFFFFFFFFE#64⟩,
   ⟨"TICK", 0x7000000000000000#64, 0xFFFFFFFFFFFFFFFF#64⟩,
   ⟨"SEQ_RESET", 0x8000000000000000#64, 0xFFFFFFFFFFFFFFFF#64⟩]

/-- The mnemonic of a command (R92). -/
def mnemonicOf (i : Instr) : String :=
  match i with
  | .nop => "NOP"
  | .cycle .. => "CYCLE"
  | .debUpdate .. => "DEB_UPDATE"
  | .debReset .. => "DEB_RESET"
  | .accSet .. => "ACC_SET"
  | .wdHeartbeat .. => "WD_HEARTBEAT"
  | .wdSendResult .. => "WD_SEND_RESULT"
  | .tick => "TICK"
  | .seqReset => "SEQ_RESET"

/-- Byte `k` carries bits `[8k+7:8k]` of the word (R75, D26). -/
def bytesOfWord (w : Word) : List Byte :=
  (List.range 8).map fun k => w.extractLsb' (8 * k) 8

/-- The number that bytes in little-endian order carry (R75). -/
def natOfBytes (bs : List Byte) : Nat :=
  bs.foldr (fun b n => b.toNat + 256 * n) 0

/-- The word that eight adapter bytes carry; no other number of bytes is one command (R75, R76, R90). -/
def wordOfBytes (bs : List Byte) : Option Word :=
  if bs.length = 8 then some (BitVec.ofNat 64 (natOfBytes bs)) else none

/-- The one command word whose bits are `w`, the bits above `nbits` being 0; a number with a bit above bit 63
is no command word (R90, log entry 11). -/
def tableWord (nbits w : Nat) : Option Word :=
  if w % 2 ^ nbits < 2 ^ 64 then some (BitVec.ofNat 64 (w % 2 ^ nbits)) else none

/-- What `decode` reads from the command word whose bits are `w`. -/
def decodeTableWord (nbits w : Nat) : Option Instr :=
  match tableWord nbits w with
  | none => none
  | some c => (decode c).toOption

end Sys2Proof
end

