-- ==== Sys2Proof/Config.lean ====
section
/-! DEFINITION. The constants an implementation fixes (R11): one configuration record, and the type of a deviation formula. -/

namespace Sys2Proof

/-- `TORQUE_SIGN`: +1 or -1 (R11). -/
inductive Sign where
  | plus
  | minus
  deriving DecidableEq, Repr

/-- The sign as an integer factor. -/
def Sign.factor (g : Sign) : Int :=
  match g with
  | .plus => 1
  | .minus => -1

/-- `ADC_MAX`, fixed = 1023 (R11). -/
abbrev adcMax : Nat := 1023

/-- The parameters of R11, in its order (`ADC_MAX` is the constant `adcMax`). Which values the record may
hold is `Params.Valid` (WellFormed.lean). -/
structure Params where
  /-- `MID_SCALE`, boundary of the low deviation branch -/
  midScale : Nat
  /-- `MOVE_RANGE`, divisor of the general deviation branch -/
  moveRange : Nat
  /-- `DEV_THR`, deviation threshold in percent -/
  devThr : Nat
  /-- `V_LOW`, low-position threshold in ADC counts -/
  vLow : Nat
  /-- `V_MIN_ACT`, minimum-active voltage in ADC counts -/
  vMinAct : Nat
  /-- `V_MAX`, maximum voltage in ADC counts -/
  vMax : Nat
  /-- `T_MAX`, the maximum torque in torque LSBs -/
  tMax : Nat
  /-- `TORQUE_SIGN` -/
  torqueSign : Sign
  /-- `HB_ID`; its constraint `0 <= HB_ID < 2^29` is its type -/
  hbId : BitVec 29
  /-- `HB_TIMEOUT`, heartbeat bound in ticks -/
  hbTimeout : Nat
  /-- `SF_THR`, send-failure threshold -/
  sfThr : Nat
  deriving DecidableEq, Repr

/-- The reference column of R11 (D47), which the test vectors of 95_test_vectors.md use. -/
def Params.reference : Params where
  midScale := 512
  moveRange := 1000
  devThr := 10
  vLow := 100
  vMinAct := 40
  vMax := 940
  tMax := 900
  torqueSign := .minus
  hbId := 0x100#29
  hbTimeout := 50
  sfThr := 3

/-- A deviation formula `dev(a, b, avg)` on naturals: the configuration field of D30 and
93_implementation_defined.md. What `exec` runs is rule R123 (`Machine.deviation`); the evaluation over
any other formula is `Machine.accEvalWith` (log entry 8). -/
abbrev DevFormula := Nat → Nat → Nat → Nat

end Sys2Proof
end

