-- ==== Sys2Proof/Machine/State.lean ====
section
/-! DEFINITION. The state of the block as plain data: every register of 10_state.md, the parameter record, and what the
ports carry at the coming clock edges. -/

namespace Sys2Proof.Machine

/-- The states of the Interlock Sequencer (R17, R50). -/
inductive SeqState where
  | init
  | armed
  | driving
  | faultShutdown
  deriving DecidableEq, Repr

/-- One Switch Debouncer instance (R32). -/
structure Debouncer where
  /-- `DEB_RAW[i]` (R33) -/
  raw : Bool
  /-- `DEB_LATCH[i]` (R34) -/
  latch : Bool
  deriving DecidableEq, Repr

/-- The Accelerator Monitor's registers. -/
structure Accelerator where
  /-- `ACC_SA` (R35) -/
  sa : BitVec 10
  /-- `ACC_SB` (R35) -/
  sb : BitVec 10
  /-- `ACC_AVG` (R36) -/
  avg : BitVec 10
  /-- `ACC_DEV` (R37) -/
  dev : BitVec 7
  /-- `ACC_HIST`, bit 0 the newest sample (R38) -/
  hist : BitVec 3
  /-- `ACC_FAULT` (R39) -/
  fault : Bool
  /-- `ACC_REL` (R40) -/
  rel : BitVec 2
  /-- `ACC_TORQUE` (R41) -/
  torque : BitVec 16
  deriving DecidableEq, Repr

/-- The Inverter Link Watchdog's registers. -/
structure Watchdog where
  /-- `WD_LAST_HB` (R43) -/
  lastHb : BitVec 32
  /-- `WD_ELAPSED` (R44) -/
  elapsed : BitVec 32
  /-- `WD_FAILCNT` (R45) -/
  failCnt : BitVec 8
  /-- `WD_REQ` (R46) -/
  req : Bool
  /-- `WD_TO` (R47) -/
  timeout : Bool
  /-- `WD_SF` (R47) -/
  sendFail : Bool
  deriving DecidableEq, Repr

/-- The Interlock Sequencer's registers. -/
structure Sequencer where
  /-- `SEQ_STATE` (R50) -/
  state : SeqState
  /-- `AIR_EN` (R48) -/
  airEn : Bool
  /-- `TQ_EN` (R48) -/
  tqEn : Bool
  /-- `SDC_OPEN` (R49) -/
  sdcOpen : Bool
  /-- `DRIVE_EN` (R49) -/
  driveEn : Bool
  /-- `SEQ_FC_WD` (R51) -/
  fcWd : Bool
  /-- `SEQ_FC_SDC` (R51) -/
  fcSdc : Bool
  deriving DecidableEq, Repr

/-- The inverter-link output registers. -/
structure Link where
  /-- `LINK_FLAGS` (R52) -/
  flags : BitVec 4
  /-- `LINK_BATT` (R53) -/
  batt : BitVec 16
  /-- `LINK_TORQUE`, two's complement (R54) -/
  torque : BitVec 32
  /-- `LINK_TXCNT` (R55) -/
  txCnt : BitVec 32
  /-- `LINK_TX_VALID` (R56) -/
  txValid : Bool
  deriving DecidableEq, Repr

/-- The error capture (R57). -/
structure ErrorCapture where
  /-- `CMD_ERR` -/
  cmdErr : Bool
  /-- `ERR_OP` -/
  errOp : BitVec 4
  deriving DecidableEq, Repr

/-- The five agents that act on the block (R9). -/
inductive Agent where
  | controlLoop
  | timer
  | linkAdapter
  | diagnosticReader
  | resetSource
  deriving DecidableEq, Repr

/-- A command word on the command port (`CMD_VALID = 1`) and the agent that put it there. The block does not see
the agent (R231). -/
structure Issue where
  agent : Agent
  word : Word
  deriving DecidableEq, Repr

/-- What the inputs carry in the clock period that ends at one rising edge (R70, R71, R74). -/
structure Edge where
  /-- `RST` -/
  rst : Bool
  /-- `none`: `CMD_VALID = 0`; `some c`: `CMD_VALID = 1` and `CMD = c.word` -/
  command : Option Issue
  /-- `RADDR` -/
  raddr : BitVec 8
  deriving DecidableEq, Repr

/-- The inputs when nobody drives them (DESIGN CHOICE, log entries 3 and 10). -/
def Edge.idle : Edge where
  rst := false
  command := none
  raddr := 0#8

/-- The whole state. -/
structure State where
  /-- the parameters the block was built with (R11, R254 (4)); no register (DESIGN CHOICE, log entry 1) -/
  params : Params
  /-- the drive-switch debouncer -/
  drv : Debouncer
  /-- the shutdown-circuit debouncer -/
  sdc : Debouncer
  acc : Accelerator
  /-- `TICK_COUNT` (R42) -/
  tickCount : BitVec 32
  wd : Watchdog
  seq : Sequencer
  link : Link
  err : ErrorCapture
  /-- the inputs at the coming edges, the next one first; no register (DESIGN CHOICE, log entry 3) -/
  edges : List Edge
  deriving DecidableEq, Repr

/-- Why the machine stops with a fault. There is no constructor: "The block has no trap mechanism. No command is
aborted" (R220), and every fault event of R221 is a change of registers, so no step of the model faults (safe). -/
inductive Fault where
  deriving DecidableEq, Repr

/-- Why the model refuses a step. -/
inductive Refusal where
  /-- raised by an arm of `exec` for a command without a meaning; no arm does (safe) -/
  | notModelled (mnemonic : String)
  /-- raised by every edge when the parameter record breaks a constraint of R11: "refused by the model; the block has
  no defined behaviour for it" (safe; log entry 2) -/
  | parametersBreakConstraint
  deriving DecidableEq, Repr

/-- The reset value of both debouncers (R251). -/
def Debouncer.reset : Debouncer where
  raw := false
  latch := false

/-- The reset values of the monitor: "fault latched-disabled", "history cleared" (R251). -/
def Accelerator.reset : Accelerator where
  sa := 0
  sb := 0
  avg := 0
  dev := 0
  hist := 0b000#3
  fault := true
  rel := 0
  torque := 0

/-- The reset values of the watchdog (R251). -/
def Watchdog.reset : Watchdog where
  lastHb := 0
  elapsed := 0
  failCnt := 0
  req := false
  timeout := false
  sendFail := false

/-- The reset values of the sequencer (R251). -/
def Sequencer.reset : Sequencer where
  state := .init
  airEn := false
  tqEn := false
  sdcOpen := false
  driveEn := false
  fcWd := false
  fcSdc := false

/-- The reset values of the link registers (R251). -/
def Link.reset : Link where
  flags := 0b0000#4
  batt := 0
  torque := 0
  txCnt := 0
  txValid := false

/-- The reset values of the error capture (R251). -/
def ErrorCapture.reset : ErrorCapture where
  cmdErr := false
  errOp := 0

/-- A block built with parameters `p`, right after reset (R251), with the inputs `edges` still to come. -/
def State.resetWith (p : Params) (edges : List Edge) : State where
  params := p
  drv := Debouncer.reset
  sdc := Debouncer.reset
  acc := Accelerator.reset
  tickCount := 0
  wd := Watchdog.reset
  seq := Sequencer.reset
  link := Link.reset
  err := ErrorCapture.reset
  edges := edges

/-- The machine right after reset (R251), with the reference parameters (DESIGN CHOICE, log entry 1) and no input
presented (DESIGN CHOICE, log entry 3). -/
def State.reset : State :=
  State.resetWith Params.reference []

end Sys2Proof.Machine
end

