-- ==== Sys2Proof/Machine/Operands.lean ====
section
/-! DEFINITION. What a command reads from its operands: the clamped samples, the average, the deviation, the torque map, and the
debouncer that SEL names. All arithmetic is exact on naturals (R13). -/

namespace Sys2Proof.Machine

/-- `clamp(r)`: a sample above `ADC_MAX` becomes 0 (R121). -/
def clampSample (r : BitVec 16) : Nat :=
  if r.toNat ≤ adcMax then r.toNat else 0

/-- The integer average `(a + b) div 2` (R122). -/
def average (a b : Nat) : Nat :=
  (a + b) / 2

/-- `|x - y|` on naturals (R13). -/
def absDiff (x y : Nat) : Nat :=
  max x y - min x y

/-- The larger distance `d` of a sample from the average (R123). -/
def sampleDistance (a b avg : Nat) : Nat :=
  max (absDiff a avg) (absDiff b avg)

/-- The deviation percentage with its two branches (R123, D30). -/
def deviation (p : Params) : DevFormula := fun a b avg =>
  let d := sampleDistance a b avg
  let q := if avg < p.midScale then (d * 100) / (adcMax - avg) else (d * 100) / p.moveRange
  min q 100

/-- `map(m)`: 0 up to `V_MIN_ACT`, `T_MAX` from `V_MAX`, floor-linear in between (R128). -/
def torqueMap (p : Params) (m : Nat) : Nat :=
  if m ≤ p.vMinAct then 0
  else if p.vMax ≤ m then p.tMax
  else ((m - p.vMinAct) * p.tMax) / (p.vMax - p.vMinAct)

/-- The debouncer instance that SEL names (R32, R95). -/
def getDeb (s : State) (i : DebSel) : Debouncer :=
  match i with
  | .drv => s.drv
  | .sdc => s.sdc

end Sys2Proof.Machine
end

