-- ==== Sys2Proof/Machine/Flags.lean ====
section
/-! DEFINITION. Every flag and counter computation of the rules: the debouncer's edge, the fault history, the fault latch and its release,
the watchdog's two causes, the sequencer's next state, and the packing of flags into bits. -/

namespace Sys2Proof.Machine

/-- A debouncer after a sample: the latch is set on a rising edge, and the sample is recorded (R111). -/
def debSample (d : Debouncer) (raw : Bool) : Debouncer where
  raw := raw
  latch := d.latch || (raw && !d.raw)

/-- A debouncer with its latch cleared; the recorded sample stays (R112). -/
def debUnlatch (d : Debouncer) : Debouncer :=
  { d with latch := false }

/-- `hist' = {ACC_HIST[1:0], ex}` (R124). -/
def pushHistory (h : BitVec 3) (ex : Bool) : BitVec 3 :=
  h.extractLsb' 0 2 ++ bit ex

/-- `edge = (hist' = 0b111) and (ACC_FAULT = 0)` (R125). -/
def faultEdge (hist' : BitVec 3) (fault : Bool) : Bool :=
  hist' == 0b111#3 && !fault

/-- `released = (a < V_LOW) and (b < V_LOW)` (R126). -/
def pedalsReleased (p : Params) (a b : Nat) : Bool :=
  decide (a < p.vLow) && decide (b < p.vLow)

/-- The release counter after an evaluation (R126). -/
def releaseCount (rel : BitVec 2) (edge released : Bool) : BitVec 2 :=
  if edge then 0
  else if released then BitVec.ofNat 2 (min (rel.toNat + 1) 2)
  else 0

/-- `fault2`: the latched fault is cleared when the release counter has reached 2 (R127). -/
def faultAfterRelease (fault1 : Bool) (rel' : BitVec 2) : Bool :=
  fault1 && rel' != 2#2

/-- The consecutive-failure count after one more failure, saturating at 255 (R152). -/
def failCountUp (n : BitVec 8) : Nat :=
  min (n.toNat + 1) 255

/-- `sdc_fault`: the loop reads open in ARMED or DRIVING (R171). -/
def sdcFault (st : SeqState) (sdc : Bool) : Bool :=
  (st == .armed || st == .driving) && !sdc

/-- The condition of R171's first branch: stay in or enter FAULT_SHUTDOWN. -/
def shutdownNow (st : SeqState) (req sdc : Bool) : Bool :=
  st == .faultShutdown || req || sdcFault st sdc

/-- The sequencer's next state `s'` (R171). -/
def seqNext (s : State) (sdc : Bool) : SeqState :=
  if shutdownNow s.seq.state s.wd.req sdc then .faultShutdown
  else match s.seq.state with
    | .init => if s.sdc.latch && sdc then .armed else .init
    | .armed => if s.drv.latch && s.seq.airEn && s.seq.tqEn then .driving else .armed
    | .driving => .driving
    | .faultShutdown => .faultShutdown

/-- `s' = ARMED or s' = DRIVING`: the value of AIR_EN and TQ_EN (R171). -/
def poweredState (st : SeqState) : Bool :=
  st == .armed || st == .driving

/-- `LINK_FLAGS = {DRIVE_EN, SDC_OPEN, TQ_EN, AIR_EN}` (R52, R176). -/
def interlockFlags (q : Sequencer) : BitVec 4 :=
  bit q.driveEn ++ bit q.sdcOpen ++ bit q.tqEn ++ bit q.airEn

/-- The 2-bit encoding of the sequencer state (R50). -/
def seqStateBits (st : SeqState) : BitVec 2 :=
  match st with
  | .init => 0b00#2
  | .armed => 0b01#2
  | .driving => 0b10#2
  | .faultShutdown => 0b11#2

/-- The torque the sequencer lets through: `ACC_TORQUE` while `DRIVE_EN = 1`, otherwise 0 (R176). -/
def gatedTorque (s : State) : BitVec 16 :=
  if s.seq.driveEn then s.acc.torque else 0

/-- `twos_32(TORQUE_SIGN * t)` (R176). -/
def linkTorque (p : Params) (t : BitVec 16) : BitVec 32 :=
  BitVec.ofInt 32 (p.torqueSign.factor * t.toNat)

end Sys2Proof.Machine
end

