-- ==== Sys2Proof/WellFormed.lean ====
section
/-! DEFINITION. Which parameter records the block is defined for (R11). A command needs no check of its own: its operands'
types are as wide as its fields, so every `Instr` is well-formed. -/

namespace Sys2Proof

/-- The constraint column of R11. A record that breaks one is refused (R11, 93_implementation_defined.md). -/
abbrev Params.Valid (p : Params) : Prop :=
  (1 ≤ p.midScale ∧ p.midScale ≤ 1023) ∧
  (1 ≤ p.moveRange ∧ p.moveRange ≤ 65535) ∧
  p.devThr ≤ 100 ∧
  p.vLow ≤ 1024 ∧
  p.vMinAct < p.vMax ∧
  p.vMax ≤ 1023 ∧
  p.tMax ≤ 65535 ∧
  p.hbTimeout ≤ 2 ^ 32 - 2 ∧
  p.sfThr ≤ 254

end Sys2Proof
end

