-- ==== Sys2Proof/Machine/Ops.lean ====
section
/-! DEFINITION. The named operations over the registers: their setters, the read port and the pins, the steps that several commands
share, what an edge without a legal command does, and how an edge ends. -/

namespace Sys2Proof.Machine

/-! ### One setter per component -/

def setDrv (s : State) (d : Debouncer) : State := { s with drv := d }

def setSdc (s : State) (d : Debouncer) : State := { s with sdc := d }

def setAcc (s : State) (x : Accelerator) : State := { s with acc := x }

def setTickCount (s : State) (n : BitVec 32) : State := { s with tickCount := n }

def setWd (s : State) (w : Watchdog) : State := { s with wd := w }

def setSeq (s : State) (q : Sequencer) : State := { s with seq := q }

def setLink (s : State) (l : Link) : State := { s with link := l }

def setErr (s : State) (e : ErrorCapture) : State := { s with err := e }

def setEdges (s : State) (es : List Edge) : State := { s with edges := es }

/-- Writes the debouncer instance that SEL names (R32, R95). -/
def setDeb (s : State) (i : DebSel) (d : Debouncer) : State :=
  match i with
  | .drv => setDrv s d
  | .sdc => setSdc s d

/-! ### The read port and the pins -/

/-- `Read(addr)`: the register map of R72; every other address reads 0 (R73). -/
def readPort (s : State) (addr : BitVec 8) : RData :=
  match addr.toNat with
  | 0x00 => (bit s.seq.fcSdc ++ bit s.seq.fcWd ++ seqStateBits s.seq.state ++ bit s.seq.driveEn ++ bit s.seq.sdcOpen
      ++ bit s.seq.tqEn ++ bit s.seq.airEn).setWidth 32
  | 0x01 => (bit s.sdc.latch ++ bit s.sdc.raw ++ bit s.drv.latch ++ bit s.drv.raw).setWidth 32
  | 0x02 => s.acc.sa.setWidth 32
  | 0x03 => s.acc.sb.setWidth 32
  | 0x04 => s.acc.avg.setWidth 32
  | 0x05 => s.acc.dev.setWidth 32
  | 0x06 => (s.acc.rel ++ bit s.acc.fault ++ s.acc.hist).setWidth 32
  | 0x07 => s.acc.torque.setWidth 32
  | 0x08 => (bit s.wd.sendFail ++ bit s.wd.timeout ++ bit s.wd.req).setWidth 32
  | 0x09 => s.wd.elapsed
  | 0x0A => s.wd.failCnt.setWidth 32
  | 0x0B => s.wd.lastHb
  | 0x0C => s.tickCount
  | 0x0D => (bit s.link.txValid ++ s.link.flags).setWidth 32
  | 0x0E => s.link.batt.setWidth 32
  | 0x0F => s.link.torque
  | 0x10 => s.link.txCnt
  | 0x11 => (s.err.errOp ++ 0#3 ++ bit s.err.cmdErr).setWidth 32
  | _ => 0

/-- `getValue(k)` of the monitor: the clamped stored samples, and the sentinel 0 for any other index (R73, R131). -/
def getValue (s : State) (k : Nat) : RData :=
  match k with
  | 0 => readPort s 0x02#8
  | 1 => readPort s 0x03#8
  | _ => 0

/-- `getTorque()` (R131). -/
def getTorque (s : State) : RData := readPort s 0x07#8

/-- `getDeviation()` (R131). -/
def getDeviation (s : State) : RData := readPort s 0x05#8

/-- `isLatched()` of an instance: bit 1 (DRV) or bit 3 (SDC) of `Read(0x01)` (R114). -/
def isLatched (s : State) (i : DebSel) : Bool :=
  match i with
  | .drv => (readPort s 0x01#8).getLsbD 1
  | .sdc => (readPort s 0x01#8).getLsbD 3

/-- Pin `AIR_PLUS` (R58). -/
def airPlus (s : State) : Bool := s.seq.airEn

/-- Pin `AIR_MINUS` (R58). -/
def airMinus (s : State) : Bool := !s.seq.sdcOpen

/-- Pin `RTD` (R58). -/
def rtd (s : State) : Bool := s.seq.driveEn

/-! ### The input side of an edge -/

/-- What the inputs carry at the coming edge; when none is listed, nobody presents anything (log entries 3, 10). -/
def presented (s : State) : Edge :=
  s.edges.headD Edge.idle

/-- The coming edge has been taken: an input is presented for one edge only (R74, R260). -/
def consumeEdge (s : State) : State :=
  setEdges s s.edges.tail

/-- `RDATA` in the clock period before the coming edge: `Read(RADDR)` of the registers as they stand (R71, R255). -/
def rdata (s : State) : RData :=
  readPort s (presented s).raddr

/-- The command an edge executes: none at a reset, idle or illegal edge (R74). -/
def executedBy (e : Edge) : Option Instr :=
  if e.rst then none
  else match e.command with
    | none => none
    | some c => (decode c.word).toOption

/-! ### Component steps -/

/-- The body of DEB_UPDATE and of CYCLE's step 1 (R111, R177). -/
def debUpdate (s : State) (i : DebSel) (raw : Bool) : State :=
  setDeb s i (debSample (getDeb s i) raw)

/-- The body of DEB_RESET (R112). -/
def debReset (s : State) (i : DebSel) : State :=
  setDeb s i (debUnlatch (getDeb s i))

/-- `acc_eval` over a deviation formula (R129; 93_implementation_defined.md: a model may replace the formula). -/
def accEvalWith (dev : DevFormula) (p : Params) (x : Accelerator) (sa sb : BitVec 16) : Accelerator :=
  let a := clampSample sa
  let b := clampSample sb
  let avg := average a b
  let d := dev a b avg
  let hist' := pushHistory x.hist (decide (p.devThr < d))
  let edge := faultEdge hist' x.fault
  let fault1 := x.fault || edge
  let rel' := releaseCount x.rel edge (pedalsReleased p a b)
  let fault2 := faultAfterRelease fault1 rel'
  { sa := BitVec.ofNat 10 a
    sb := BitVec.ofNat 10 b
    avg := BitVec.ofNat 10 avg
    dev := BitVec.ofNat 7 d
    hist := hist'
    fault := fault2
    rel := rel'
    torque := BitVec.ofNat 16 (if fault2 then 0 else torqueMap p (min a b)) }

/-- `acc_eval` (R129) with the deviation of R123. -/
def accEval (p : Params) (x : Accelerator) (sa sb : BitVec 16) : Accelerator :=
  accEvalWith (deviation p) p x sa sb

/-- The body of ACC_SET and of CYCLE's step 2 (R129, R177). -/
def accStep (s : State) (sa sb : BitVec 16) : State :=
  setAcc s (accEval s.params s.acc sa sb)

/-- The body of WD_HEARTBEAT: a message with any identifier but `HB_ID` is ignored (R151). -/
def heartbeat (s : State) (id : BitVec 29) : State :=
  if id = s.params.hbId then setWd s { s.wd with lastHb := s.tickCount, elapsed := 0 } else s

/-- The body of WD_SEND_RESULT (R152). -/
def sendResult (s : State) (success : Bool) : State :=
  if success then setWd s { s.wd with failCnt := 0 }
  else
    let n := failCountUp s.wd.failCnt
    let exceeded := decide (s.params.sfThr < n)
    setWd s { s.wd with
      failCnt := BitVec.ofNat 8 n
      req := s.wd.req || exceeded
      sendFail := s.wd.sendFail || exceeded }

/-- `wd_eval`: elapsed ticks modulo 2^32, and the timeout (R154). -/
def wdEval (s : State) : State :=
  let el := s.tickCount - s.wd.lastHb
  let timedOut := decide (s.params.hbTimeout < el.toNat)
  setWd s { s.wd with
    elapsed := el
    req := s.wd.req || timedOut
    timeout := s.wd.timeout || timedOut }

/-- The outputs that follow from the next state: AIR_EN, TQ_EN and DRIVE_EN (R171). -/
def moveTo (s : State) (st : SeqState) : State :=
  setSeq s { s.seq with
    state := st
    airEn := poweredState st
    tqEn := poweredState st
    driveEn := st == .driving }

/-- FAULT_SHUTDOWN entered or kept: the outputs forced off, and the cause recorded on entry from another state
only (R171, R175, R228). The one shared operation where another machine has its trap entry. -/
def enterFaultShutdown (s : State) (byWd bySdc : Bool) : State :=
  let q := s.seq
  let s1 := if q.state == .faultShutdown then s else setSeq s { q with fcWd := byWd, fcSdc := bySdc }
  moveTo s1 .faultShutdown

/-- Consumes a set SDC latch in INIT (R171, R174). -/
def consumeSdcLatch (s : State) : State :=
  if s.seq.state == .init && s.sdc.latch then setSdc s (debUnlatch s.sdc) else s

/-- `seq_eval(sdc)` (R171): the state decision, then the drive latch consumed and SDC_OPEN written (R173). -/
def seqEval (s : State) (sdc : Bool) : State :=
  let decided :=
    if shutdownNow s.seq.state s.wd.req sdc then enterFaultShutdown s s.wd.req (sdcFault s.seq.state sdc)
    else moveTo (consumeSdcLatch s) (seqNext s sdc)
  let consumed := setDrv decided (debUnlatch decided.drv)
  setSeq consumed { consumed.seq with sdcOpen := !sdc }

/-- `link_out(batt)` (R176). -/
def linkOut (s : State) (batt : BitVec 16) : State :=
  setLink s
    { flags := interlockFlags s.seq
      batt := batt
      torque := linkTorque s.params (gatedTorque s)
      txCnt := s.link.txCnt + 1
      txValid := true }

/-- The body of SEQ_RESET, the return from FAULT_SHUTDOWN to INIT (R178, R229). -/
def returnToInit (s : State) : State :=
  let q := (moveTo s .init).seq
  let s1 := setSeq s { q with fcWd := false, fcSdc := false }
  let s2 := setSdc (setDrv s1 Debouncer.reset) Debouncer.reset
  setWd s2 { s2.wd with req := false, timeout := false, sendFail := false, failCnt := 0 }

/-! ### Edges that execute no command, and the end of an edge -/

/-- `LINK_TX_VALID <- 0`, as after every edge that does not execute CYCLE (R56, R210, R211; log entry 6). -/
def clearStrobe (s : State) : State :=
  setLink s { s.link with txValid := false }

/-- `raise IllegalCommand(op)` (R212): the word is discarded and its opcode field captured, the first one only. -/
def raiseIllegal (s : State) (op : BitVec 4) : State :=
  clearStrobe (setErr s { cmdErr := true, errOp := if s.err.cmdErr then s.err.errOp else op })

/-- The hardware reset: every register at its reset value (R250, R251). The parameters stay as built (R254 (4)), and the
inputs still to come are the host's. -/
def hardwareReset (s : State) : State :=
  State.resetWith s.params s.edges

/-- How every edge ends: in the state it leads to, unless the parameter record breaks a constraint of R11, which the
model refuses (R11, log entry 2). -/
def retire (s t : State) : Host.Outcome State Fault Refusal :=
  if s.params.Valid then .next t else .refused .parametersBreakConstraint

/-- An edge with `RST = 1` (R250). -/
def resetEdge (s : State) : Host.Outcome State Fault Refusal :=
  retire s (hardwareReset s)

/-- An edge with `RST = 0` and `CMD_VALID = 0` (R211). -/
def idleEdge (s : State) : Host.Outcome State Fault Refusal :=
  retire s (clearStrobe s)

/-- An edge with an illegal word (R212). -/
def illegalEdge (op : BitVec 4) (s : State) : Host.Outcome State Fault Refusal :=
  retire s (raiseIllegal s op)

end Sys2Proof.Machine
end

