-- ==== Sys2Proof/Machine/Debounce.lean ====
section
/-! DEFINITION. The Switch Debouncer commands (40_debouncer.md). -/

namespace Sys2Proof.Machine

/-- DEB_UPDATE (R111). -/
def execDebUpdate (sel : DebSel) (raw : Bool) (s : State) : Host.Outcome State Fault Refusal :=
  retire s (clearStrobe (debUpdate s sel raw))

/-- DEB_RESET (R112). -/
def execDebReset (sel : DebSel) (s : State) : Host.Outcome State Fault Refusal :=
  retire s (clearStrobe (debReset s sel))

end Sys2Proof.Machine
end

