-- ==== Sys2Proof/Machine/Interlock.lean ====
section
/-! DEFINITION. The Interlock Sequencer commands (43_sequencer.md). -/

namespace Sys2Proof.Machine

/-- The five steps of one control cycle, each reading what the earlier ones wrote (R177). -/
def controlCycle (drv sdc : Bool) (batt sb sa : BitVec 16) (s : State) : State :=
  let s1 := debUpdate (debUpdate s .drv drv) .sdc sdc
  let s2 := accStep s1 sa sb
  let s3 := wdEval s2
  let s4 := seqEval s3 sdc
  linkOut s4 batt

/-- CYCLE (R177). -/
def execCycle (drv sdc : Bool) (batt sb sa : BitVec 16) (s : State) : Host.Outcome State Fault Refusal :=
  retire s (controlCycle drv sdc batt sb sa s)

/-- SEQ_RESET (R178). -/
def execSeqReset (s : State) : Host.Outcome State Fault Refusal :=
  retire s (clearStrobe (returnToInit s))

end Sys2Proof.Machine
end

