-- ==== Sys2Proof/Machine/LinkWatchdog.lean ====
section
/-! DEFINITION. The Inverter Link Watchdog and tick commands (42_watchdog.md). -/

namespace Sys2Proof.Machine

/-- WD_HEARTBEAT (R151). -/
def execWdHeartbeat (id : BitVec 29) (s : State) : Host.Outcome State Fault Refusal :=
  retire s (clearStrobe (heartbeat s id))

/-- WD_SEND_RESULT (R152). -/
def execWdSendResult (success : Bool) (s : State) : Host.Outcome State Fault Refusal :=
  retire s (clearStrobe (sendResult s success))

/-- TICK (R153). -/
def execTick (s : State) : Host.Outcome State Fault Refusal :=
  retire s (clearStrobe (setTickCount s (s.tickCount + 1)))

end Sys2Proof.Machine
end

