-- ==== Sys2Proof/Machine/Monitor.lean ====
section
/-! DEFINITION. The Accelerator Monitor command (41_accelerator.md). -/

namespace Sys2Proof.Machine

/-- ACC_SET: one evaluation of the monitor (R129). -/
def execAccSet (sb sa : BitVec 16) (s : State) : Host.Outcome State Fault Refusal :=
  retire s (clearStrobe (accStep s sa sb))

end Sys2Proof.Machine
end

