-- ==== Sys2Proof/Machine/Dispatch.lean ====
section
/-! DEFINITION. One arm per command (R92). -/

namespace Sys2Proof.Machine

def exec (i : Instr) (s : State) : Host.Outcome State Fault Refusal :=
  match i with
  | .nop => Sys2Proof.Machine.execNop s
  | .cycle drv sdc batt sb sa => Sys2Proof.Machine.execCycle drv sdc batt sb sa s
  | .debUpdate sel raw => Sys2Proof.Machine.execDebUpdate sel raw s
  | .debReset sel => Sys2Proof.Machine.execDebReset sel s
  | .accSet sb sa => Sys2Proof.Machine.execAccSet sb sa s
  | .wdHeartbeat id => Sys2Proof.Machine.execWdHeartbeat id s
  | .wdSendResult success => Sys2Proof.Machine.execWdSendResult success s
  | .tick => Sys2Proof.Machine.execTick s
  | .seqReset => Sys2Proof.Machine.execSeqReset s

end Sys2Proof.Machine
end

