-- ==== Sys2Proof/Machine/Step.lean ====
section
/-! DEFINITION. One rising edge of CLK (R74), and the state in which the next edge presents a given command word. -/

namespace Sys2Proof.Machine

/-- One rising edge: exactly one of reset, command, illegal command and idle, in the priority order of R74. -/
def step (s : State) : Host.Outcome State Fault Refusal :=
  let e := presented s
  let s' := consumeEdge s
  if e.rst then resetEdge s'
  else match e.command with
    | none => idleEdge s'
    | some c =>
      match decode c.word with
      | .ok i => exec i s'
      | .error x => illegalEdge x.op s'

/-- `s` with the control loop presenting, at the next edge, the command word whose bits are `w`, the bits above
`nbits` being 0 (log entry 4). -/
def State.withFetchWord (s : State) (nbits w : Nat) : State :=
  { s with edges :=
      { rst := false
        command := some { agent := .controlLoop, word := BitVec.ofNat 64 (w % 2 ^ nbits) }
        raddr := 0#8 } :: s.edges }

end Sys2Proof.Machine
end

