-- ==== Sys2Proof/Machine/Assembler.lean ====
section
/-! DEFINITION. The assembly syntax of R103 and the pseudo-instructions of R104: lines, the edges they stand for, and a reader of their
text. A text is a list of characters, so that Lean's kernel can run the reader. -/

namespace Sys2Proof.Machine

/-- One line of assembly (R103, R104). -/
inductive AsmLine where
  | command (i : Instr)
  /-- `TICKS n`: n consecutive TICK lines -/
  | ticks (n : Nat)
  /-- `IDLE n`: n clock edges with `CMD_VALID = 0` -/
  | idle (n : Nat)
  /-- `.word w`: a raw command word -/
  | rawWord (w : Word)
  deriving DecidableEq, Repr

/-- The agent that R9 gives a command to. -/
def issuerOf (i : Instr) : Agent :=
  match i with
  | .tick => .timer
  | .wdHeartbeat _ => .linkAdapter
  | .wdSendResult _ => .linkAdapter
  | .nop => .controlLoop
  | .cycle .. => .controlLoop
  | .debUpdate .. => .controlLoop
  | .debReset _ => .controlLoop
  | .accSet .. => .controlLoop
  | .seqReset => .controlLoop

/-- An edge that presents a command word from an agent, with nobody reading. -/
def wordEdge (a : Agent) (w : Word) : Edge where
  rst := false
  command := some { agent := a, word := w }
  raddr := 0#8

/-- An edge that presents a command, from the agent that issues it. -/
def commandEdge (i : Instr) : Edge :=
  wordEdge (issuerOf i) (encode i)

/-- The clock edges a line stands for (R103, R104). -/
def lineEdges (l : AsmLine) : List Edge :=
  match l with
  | .command i => [commandEdge i]
  | .ticks n => List.replicate n (commandEdge .tick)
  | .idle n => List.replicate n Edge.idle
  | .rawWord w => [wordEdge .controlLoop w]

/-- The clock edges of a program, one line after the other. -/
def assemble (ls : List AsmLine) : List Edge :=
  ls.flatMap lineEdges

/-! ### Reading the text of a line -/

/-- The pieces of a text between separators. -/
def splitChars (sep : Char) (cs : List Char) : List (List Char) :=
  match cs with
  | [] => [[]]
  | c :: rest =>
    let pieces := splitChars sep rest
    if c = sep then [] :: pieces
    else match pieces with
      | [] => [[c]]
      | p :: ps => (c :: p) :: ps

/-- A text without the spaces at its two ends. -/
def trimChars (cs : List Char) : List Char :=
  ((cs.dropWhile (· == ' ')).reverse.dropWhile (· == ' ')).reverse

/-- The value of one digit in a base up to 16; both cases of the letters (log entry 13). -/
def digitValue (base : Nat) (c : Char) : Option Nat :=
  let k := c.toNat
  let v :=
    if 48 ≤ k ∧ k ≤ 57 then some (k - 48)
    else if 65 ≤ k ∧ k ≤ 70 then some (k - 55)
    else if 97 ≤ k ∧ k ≤ 102 then some (k - 87)
    else none
  v.filter (· < base)

/-- The number that digits write, after the value of the digits before them. -/
def digitsValue (base acc : Nat) (cs : List Char) : Option Nat :=
  match cs with
  | [] => some acc
  | c :: rest =>
    match digitValue base c with
    | none => none
    | some v => digitsValue base (base * acc + v) rest

/-- A number: decimal, or hexadecimal with `0x` (R103). -/
def readNumber (cs : List Char) : Option Nat :=
  match cs with
  | [] => none
  | ['0', 'x'] => none
  | '0' :: 'x' :: rest => digitsValue 16 0 rest
  | c :: rest => digitsValue 10 0 (c :: rest)

/-- A number that fits `n` bits. -/
def readBits (n : Nat) (cs : List Char) : Option (BitVec n) :=
  (readNumber cs).bind fun v => if v < 2 ^ n then some (BitVec.ofNat n v) else none

/-- `<0|1>`. -/
def readFlag (cs : List Char) : Option Bool :=
  if cs = ['0'] then some false else if cs = ['1'] then some true else none

/-- `<DRV|SDC>`. -/
def readSel (cs : List Char) : Option DebSel :=
  if cs = ['D', 'R', 'V'] then some .drv else if cs = ['S', 'D', 'C'] then some .sdc else none

/-- `<OK|FAIL>`: OK encodes S = 1 and FAIL encodes S = 0. -/
def readResult (cs : List Char) : Option Bool :=
  if cs = ['O', 'K'] then some true else if cs = ['F', 'A', 'I', 'L'] then some false else none

/-- The text that the one operand `name=text` gives for a name: none when the name is not given, so that it is 0;
a second operand of that name, or any other name, is refused by `cycleNames`. -/
def namedText (name : List Char) (ops : List (List Char)) : Option (List Char) :=
  match ops with
  | [] => none
  | op :: rest =>
    match splitChars '=' op with
    | [k, v] => if trimChars k = name then some (trimChars v) else namedText name rest
    | _ => namedText name rest

/-- The operand names of a CYCLE line, in the order given; none if an operand is not `name=text`. -/
def cycleNames (ops : List (List Char)) : Option (List (List Char)) :=
  match ops with
  | [] => some []
  | op :: rest =>
    match splitChars '=' op, cycleNames rest with
    | [k, _], some ks => some (trimChars k :: ks)
    | _, _ => none

/-- The CYCLE operands R103 knows. -/
def cycleOperands : List (List Char) :=
  [['d', 'r', 'v'], ['s', 'd', 'c'], ['a'], ['b'], ['b', 'a', 't', 't']]

/-- The text of a named CYCLE operand; an omitted operand is 0 (R103). -/
def operandText (name : List Char) (ops : List (List Char)) : List Char :=
  (namedText name ops).getD ['0']

/-- `CYCLE drv=<0|1>, sdc=<0|1>, a=<u16>, b=<u16>, batt=<u16>` (R103). -/
def readCycle (ops : List (List Char)) : Option AsmLine :=
  match cycleNames ops with
  | none => none
  | some ks =>
    if ks.all cycleOperands.contains && decide (ks.eraseDups.length = ks.length) then
      match readFlag (operandText ['d', 'r', 'v'] ops), readFlag (operandText ['s', 'd', 'c'] ops),
        readBits 16 (operandText ['b', 'a', 't', 't'] ops), readBits 16 (operandText ['b'] ops),
        readBits 16 (operandText ['a'] ops) with
      | some drv, some sdc, some batt, some sb, some sa => some (.command (.cycle drv sdc batt sb sa))
      | _, _, _, _, _ => none
    else none

/-- A line's text: the mnemonic first, then operands separated by commas (R103, R104). -/
def readLine (text : List Char) : Option AsmLine :=
  let line := trimChars text
  let mnemonic := line.takeWhile (· != ' ')
  let tail := trimChars (line.dropWhile (· != ' '))
  let ops := if tail = [] then [] else (splitChars ',' tail).map trimChars
  if mnemonic = ['C', 'Y', 'C', 'L', 'E'] then readCycle ops
  else if mnemonic = ['D', 'E', 'B', '_', 'U', 'P', 'D', 'A', 'T', 'E'] then
    match ops with
    | [x, y] => (readSel x).bind fun i => (readFlag y).map fun b => .command (.debUpdate i b)
    | _ => none
  else if mnemonic = ['D', 'E', 'B', '_', 'R', 'E', 'S', 'E', 'T'] then
    match ops with
    | [x] => (readSel x).map fun i => .command (.debReset i)
    | _ => none
  else if mnemonic = ['A', 'C', 'C', '_', 'S', 'E', 'T'] then
    match ops with
    | [x, y] => (readBits 16 x).bind fun sa => (readBits 16 y).map fun sb => .command (.accSet sb sa)
    | _ => none
  else if mnemonic = ['W', 'D', '_', 'H', 'E', 'A', 'R', 'T', 'B', 'E', 'A', 'T'] then
    match ops with
    | [x] => (readBits 29 x).map fun id => .command (.wdHeartbeat id)
    | _ => none
  else if mnemonic = ['W', 'D', '_', 'S', 'E', 'N', 'D', '_', 'R', 'E', 'S', 'U', 'L', 'T'] then
    match ops with
    | [x] => (readResult x).map fun ok => .command (.wdSendResult ok)
    | _ => none
  else if mnemonic = ['T', 'I', 'C', 'K', 'S'] then
    match ops with
    | [x] => (readNumber x).map .ticks
    | _ => none
  else if mnemonic = ['I', 'D', 'L', 'E'] then
    match ops with
    | [x] => (readNumber x).map .idle
    | _ => none
  else if mnemonic = ['.', 'w', 'o', 'r', 'd'] then
    match ops with
    | [x] => (readBits 64 x).map .rawWord
    | _ => none
  else if ops = [] then
    if mnemonic = ['N', 'O', 'P'] then some (.command .nop)
    else if mnemonic = ['T', 'I', 'C', 'K'] then some (.command .tick)
    else if mnemonic = ['S', 'E', 'Q', '_', 'R', 'E', 'S', 'E', 'T'] then some (.command .seqReset)
    else none
  else none

end Sys2Proof.Machine
end

