-- ==== Sys2Proof/Safety.lean ====
section
/-! DEFINITION. The terms in which claims are made: the invariants of R60 and R156, the fault events of R221, the sequencer's truth table
of R172, who issues what (R9, R10), and what a list of edges counts. -/

namespace Sys2Proof

open Sys2Proof.Machine

/-! ### Words as numbers -/

/-- `w[hi:lo]` as a number (R13). -/
def bitsOf (w : Word) (hi lo : Nat) : Nat :=
  w.toNat / 2 ^ lo % 2 ^ (hi - lo + 1)

/-- Whether the format of an opcode names bit `k` below the opcode field (R93 to R98). -/
def formatNames (op k : Nat) : Bool :=
  match op with
  | 1 => decide (k ≤ 47) || k == 50 || k == 51
  | 2 => k == 0 || k == 8
  | 3 => k == 8
  | 4 => decide (k ≤ 31)
  | 5 => decide (k ≤ 28)
  | 6 => k == 0
  | _ => false

/-! ### Invariants -/

/-- R60 (b) and (c): the enables are functions of the sequencer state. -/
def FlagsFollowState (q : Sequencer) : Prop :=
  q.airEn = poweredState q.state ∧ q.tqEn = poweredState q.state ∧ q.driveEn = (q.state == .driving)

/-- R60 (d) to (g), with the record's `T_MAX`. -/
def MonitorInRange (p : Params) (x : Accelerator) : Prop :=
  (x.fault = true → x.torque = 0) ∧ x.torque.toNat ≤ p.tMax ∧ x.rel.toNat ≤ 2 ∧ x.dev.toNat ≤ 100

/-- R60 (a): drive needs both enables. -/
def DriveGated (q : Sequencer) : Prop :=
  q.driveEn = true → q.airEn = true ∧ q.tqEn = true

/-- The invariants (a) to (g) of R60. -/
def Invariants (s : State) : Prop :=
  DriveGated s.seq ∧ FlagsFollowState s.seq ∧ MonitorInRange s.params s.acc

/-- R156 (a): a request has a cause, and a cause a request. -/
def RequestHasCause (w : Watchdog) : Prop :=
  w.req = (w.timeout || w.sendFail)

/-- The cause bits are set in FAULT_SHUTDOWN and only there (R175, R178). -/
def CauseOnlyInShutdown (q : Sequencer) : Prop :=
  (q.fcWd || q.fcSdc) = (q.state == .faultShutdown)

/-! ### The fault events -/

/-- The six fault events (R221). -/
inductive FaultEvent where
  | sensorFault
  | linkTimeout
  | linkSendFailure
  | shutdownCircuitOpen
  | shutdownRequestedTaken
  | illegalCommand
  deriving DecidableEq, Repr

/-- The event's code (R221). -/
def FaultEvent.code (e : FaultEvent) : Nat :=
  match e with
  | .sensorFault => 1
  | .linkTimeout => 2
  | .linkSendFailure => 3
  | .shutdownCircuitOpen => 4
  | .shutdownRequestedTaken => 5
  | .illegalCommand => 6

/-- The flag that records the event (R221). -/
def recorded (e : FaultEvent) (s : State) : Bool :=
  match e with
  | .sensorFault => s.acc.fault
  | .linkTimeout => s.wd.timeout
  | .linkSendFailure => s.wd.sendFail
  | .shutdownCircuitOpen => s.seq.fcSdc
  | .shutdownRequestedTaken => s.seq.fcWd
  | .illegalCommand => s.err.cmdErr

/-- Where the flag stands on the read port: address and bit (R72, R224). -/
def recordedAt (e : FaultEvent) : BitVec 8 × Nat :=
  match e with
  | .sensorFault => (0x06#8, 3)
  | .linkTimeout => (0x08#8, 1)
  | .linkSendFailure => (0x08#8, 2)
  | .shutdownCircuitOpen => (0x00#8, 7)
  | .shutdownRequestedTaken => (0x00#8, 6)
  | .illegalCommand => (0x11#8, 0)

/-- Whether an edge may clear the event (the "cleared by" column of R221): the release rule runs in ACC_SET and CYCLE. -/
def mayClear (e : FaultEvent) (x : Edge) : Bool :=
  x.rst ||
  match e, executedBy x with
  | .sensorFault, some (.accSet ..) => true
  | .sensorFault, some (.cycle ..) => true
  | .linkTimeout, some .seqReset => true
  | .linkSendFailure, some .seqReset => true
  | .shutdownCircuitOpen, some .seqReset => true
  | .shutdownRequestedTaken, some .seqReset => true
  | _, _ => false

/-! ### The truth table of the sequencer -/

/-- What one row of R172 says of the state after a CYCLE; `causes` is `none` where no cause bit is written, otherwise
SEQ_FC_WD and SEQ_FC_SDC. -/
structure TableRow where
  state : SeqState
  air : Bool
  tq : Bool
  drive : Bool
  sdcLatch : Bool
  causes : Option (Bool × Bool)
  deriving DecidableEq, Repr

/-- The table of R172, row by row: state, WD_REQ, sdc, SDC latch, drive latch. -/
def truthTable (s : SeqState) (req sdc sdcL drvL : Bool) : TableRow :=
  match s, req, sdc, sdcL, drvL with
  | .init, true, _, l, _ => ⟨.faultShutdown, false, false, false, l, some (true, false)⟩
  | .init, false, _, false, _ => ⟨.init, false, false, false, false, none⟩
  | .init, false, false, true, _ => ⟨.init, false, false, false, false, none⟩
  | .init, false, true, true, _ => ⟨.armed, true, true, false, false, none⟩
  | .armed, true, c, l, _ => ⟨.faultShutdown, false, false, false, l, some (true, !c)⟩
  | .armed, false, false, l, _ => ⟨.faultShutdown, false, false, false, l, some (false, true)⟩
  | .armed, false, true, l, false => ⟨.armed, true, true, false, l, none⟩
  | .armed, false, true, l, true => ⟨.driving, true, true, true, l, none⟩
  | .driving, true, c, l, _ => ⟨.faultShutdown, false, false, false, l, some (true, !c)⟩
  | .driving, false, false, l, _ => ⟨.faultShutdown, false, false, false, l, some (false, true)⟩
  | .driving, false, true, l, _ => ⟨.driving, true, true, true, l, none⟩
  | .faultShutdown, _, _, l, _ => ⟨.faultShutdown, false, false, false, l, none⟩

/-- The moves between sequencer states that an edge may make (R171, R178, R229, R250): to itself, arming, driving, into FAULT_SHUTDOWN, and
back to INIT. -/
def allowedMove (a b : SeqState) : Bool :=
  match a, b with
  | .init, .armed => true
  | .armed, .driving => true
  | _, .faultShutdown => true
  | _, .init => true
  | x, y => x == y

/-! ### Agents and their orders -/

/-- R9: an edge is what the agents present when its command comes from an agent that issues such a command. An illegal word may come
from any agent that issues commands. -/
def properEdge (e : Edge) : Bool :=
  match e.command with
  | none => true
  | some c =>
    match decode c.word with
    | .ok i => c.agent == issuerOf i
    | .error _ => c.agent == .controlLoop || c.agent == .timer || c.agent == .linkAdapter

/-- The words an agent issues over a list of edges, in its issue order (R10). -/
def issuedBy (a : Agent) (es : List Edge) : List Word :=
  es.filterMap fun e => e.command.bind fun c => if c.agent = a then some c.word else none

/-- R10, R79: a list of edges is an interleaving of what the agents issue, each in its own order. -/
def Interleaves (es : List Edge) (issued : Agent → List Word) : Prop :=
  ∀ a, issuedBy a es = issued a

/-! ### What a list of edges counts -/

/-- A matching heartbeat for the parameters (R151). -/
def isHeartbeat (p : Params) (e : Edge) : Bool :=
  executedBy e == some (.wdHeartbeat p.hbId)

/-- Whether an edge executes CYCLE. -/
def isCycle (e : Edge) : Bool :=
  match executedBy e with
  | some (.cycle ..) => true
  | _ => false

/-- Whether an edge executes TICK. -/
def isTick (e : Edge) : Bool :=
  executedBy e == some .tick

/-- The number of TICKs since the last reset edge, from a first count (R42). -/
def ticksAfter (n : Nat) (es : List Edge) : Nat :=
  es.foldl (fun k e => if e.rst then 0 else if isTick e then k + 1 else k) n

/-- The number of CYCLEs since the last reset edge, from a first count (R55). -/
def cyclesAfter (n : Nat) (es : List Edge) : Nat :=
  es.foldl (fun k e => if e.rst then 0 else if isCycle e then k + 1 else k) n

/-- The number of send failures since the last success, SEQ_RESET or reset, from a first count (R156 (b)). -/
def failuresAfter (n : Nat) (es : List Edge) : Nat :=
  es.foldl (fun k e =>
    if e.rst then 0
    else match executedBy e with
      | some (.wdSendResult false) => k + 1
      | some (.wdSendResult true) => 0
      | some .seqReset => 0
      | _ => k) n

/-- Whether an edge can take the sequencer out of FAULT_SHUTDOWN: SEQ_RESET or reset (R179 (e)). -/
def leavesShutdown (e : Edge) : Bool :=
  e.rst || executedBy e == some .seqReset

end Sys2Proof
end

