-- ==== Sys2Proof/Certificates/Slice0/Obligations.lean ====
section
/-! DEFINITION. The statements about the block. Every statement holds for every parameter record that meets R11's constraints
(`s.params.Valid`), for every state (reachable or not, unless an invariant is a premise) and for every list of coming edges, hence for every
interleaving of the agents (R10). -/

open Sys2Proof Sys2Proof.Machine

/-! ### Encoding -/

/-- Decode and encode agree, for every command and every value of every operand (R93 to R99, R105). -/
def Obligations.DecodeOfEncodeIsTheCommand : Prop :=
  ∀ i : Instr, decode (encode i) = .ok i

/-- Every legal word is the encoding of the one command it decodes to, so no two words share a command (R100, R105). -/
def Obligations.LegalWordIsTheEncodingOfItsCommand : Prop :=
  ∀ (w : Word) (i : Instr), decode w = .ok i → encode i = w

/-- The fields of each format, as numbers `w[hi:lo]`, and its reserved bits 0 (R91, R93 to R98). -/
def Obligations.FormatsPlaceEveryField : Prop :=
  ∀ w : Word,
    (decode w = .ok .nop ↔ bitsOf w 63 60 = 0x0 ∧ bitsOf w 59 0 = 0) ∧
    (∀ (drv sdc : Bool) (batt sb sa : BitVec 16), decode w = .ok (.cycle drv sdc batt sb sa) ↔
      bitsOf w 63 60 = 0x1 ∧ bitsOf w 59 52 = 0 ∧ bitsOf w 51 51 = drv.toNat ∧ bitsOf w 50 50 = sdc.toNat ∧
      bitsOf w 49 48 = 0 ∧ bitsOf w 47 32 = batt.toNat ∧ bitsOf w 31 16 = sb.toNat ∧ bitsOf w 15 0 = sa.toNat) ∧
    (∀ (sel : DebSel) (raw : Bool), decode w = .ok (.debUpdate sel raw) ↔
      bitsOf w 63 60 = 0x2 ∧ bitsOf w 59 9 = 0 ∧ (bitsOf w 8 8 = match sel with | .drv => 0 | .sdc => 1) ∧
      bitsOf w 7 1 = 0 ∧ bitsOf w 0 0 = raw.toNat) ∧
    (∀ sel : DebSel, decode w = .ok (.debReset sel) ↔
      bitsOf w 63 60 = 0x3 ∧ bitsOf w 59 9 = 0 ∧ (bitsOf w 8 8 = match sel with | .drv => 0 | .sdc => 1) ∧
      bitsOf w 7 0 = 0) ∧
    (∀ sb sa : BitVec 16, decode w = .ok (.accSet sb sa) ↔
      bitsOf w 63 60 = 0x4 ∧ bitsOf w 59 32 = 0 ∧ bitsOf w 31 16 = sb.toNat ∧ bitsOf w 15 0 = sa.toNat) ∧
    (∀ id : BitVec 29, decode w = .ok (.wdHeartbeat id) ↔
      bitsOf w 63 60 = 0x5 ∧ bitsOf w 59 29 = 0 ∧ bitsOf w 28 0 = id.toNat) ∧
    (∀ ok : Bool, decode w = .ok (.wdSendResult ok) ↔
      bitsOf w 63 60 = 0x6 ∧ bitsOf w 59 1 = 0 ∧ bitsOf w 0 0 = ok.toNat) ∧
    (decode w = .ok .tick ↔ bitsOf w 63 60 = 0x7 ∧ bitsOf w 59 0 = 0) ∧
    (decode w = .ok .seqReset ↔ bitsOf w 63 60 = 0x8 ∧ bitsOf w 59 0 = 0)

/-- A word is legal exactly when it is a word of a row of spec/opcode_table.json, and then the row's mnemonic is its
command's (R100, R105, opcode_table.json). -/
def Obligations.LegalWordsAreTheTableRows : Prop :=
  (∀ (w : Word) (i : Instr), decode w = .ok i →
    ∃ r ∈ opcodeTable, w &&& r.mask = r.pattern ∧ r.mnemonic = mnemonicOf i) ∧
  (∀ (w : Word) (r : OpcodeRow), r ∈ opcodeTable → w &&& r.mask = r.pattern →
    ∃ i : Instr, decode w = .ok i ∧ mnemonicOf i = r.mnemonic)

/-- R100: the two kinds of illegal word, and no other; every illegal word carries its opcode field and executes the whole
illegal-command outcome of R212; every other word selects exactly one row of the opcode table, whose command it decodes to. -/
def Obligations.IllegalWordsAreExactlyTheReservedOnes : Prop :=
  ∀ w : Word,
    ((∃ x, decode w = .error x) ↔
      (9 ≤ bitsOf w 63 60 ∨ ∃ k : Nat, k < 60 ∧ formatNames (bitsOf w 63 60) k = false ∧ bitsOf w k k = 1)) ∧
    (∀ x, decode w = .error x → x.op.toNat = bitsOf w 63 60 ∧
      ∀ (s : State) (e : Edge) (a : Agent) (rest : List Edge), s.params.Valid → s.edges = e :: rest → e.rst = false →
        e.command = some ⟨a, w⟩ →
        step s = .next { s with
          edges := rest
          err := { cmdErr := true, errOp := if s.err.cmdErr then s.err.errOp else BitVec.ofNat 4 (bitsOf w 63 60) }
          link := { s.link with txValid := false } }) ∧
    ((∀ x, decode w ≠ .error x) → ∃ r ∈ opcodeTable, w &&& r.mask = r.pattern ∧
      (∀ q ∈ opcodeTable, w &&& q.mask = q.pattern → q = r) ∧
      ∃ i : Instr, decode w = .ok i ∧ mnemonicOf i = r.mnemonic)

/-- A few words written out from the formats decode to what they stand for (R93 to R98). -/
def Obligations.WordsFromTheFormatsDecode : Prop :=
  decode 0x0000000000000000#64 = .ok .nop ∧
  decode 0x100C01900221021C#64 = .ok (.cycle true true 400#16 545#16 540#16) ∧
  decode 0x2000000000000101#64 = .ok (.debUpdate .sdc true) ∧
  decode 0x3000000000000100#64 = .ok (.debReset .sdc) ∧
  decode 0x40000000038401F4#64 = .ok (.accSet 900#16 500#16) ∧
  decode 0x500000001FFFFFFF#64 = .ok (.wdHeartbeat 0x1FFFFFFF#29) ∧
  decode 0x6000000000000001#64 = .ok (.wdSendResult true) ∧
  decode 0x7000000000000000#64 = .ok .tick ∧
  decode 0x8000000000000000#64 = .ok .seqReset

/-! ### Edges -/

/-- When the word presented decodes to a command, the step is that command's execution, with the edge taken away from the inputs
still to come and nothing else around it (R74). -/
def Obligations.StepRunsTheDecodedCommand : Prop :=
  ∀ (s : State) (e : Edge) (c : Issue) (rest : List Edge) (i : Instr),
    s.edges = e :: rest → e.rst = false → e.command = some c → decode c.word = .ok i →
    step s = exec i { s with edges := rest }

/-- R74, R211: at each rising edge exactly one of reset, command, illegal command and idle, in that priority, and each completes
at its edge; an idle edge writes `LINK_TX_VALID <- 0` and nothing else, so no counter advances. -/
def Obligations.EdgeDoesOneOfFourInPriorityOrder : Prop :=
  ∀ (s : State) (e : Edge) (rest : List Edge), s.params.Valid → s.edges = e :: rest →
    (e.rst = true → step s = .next (State.resetWith s.params rest)) ∧
    (e.rst = false → ∀ c, e.command = some c →
      (∀ i, decode c.word = .ok i → ∃ t, exec i { s with edges := rest } = .next t ∧ step s = .next t) ∧
      (∀ x, decode c.word = .error x → step s = .next { s with
        edges := rest
        err := { cmdErr := true, errOp := if s.err.cmdErr then s.err.errOp else x.op }
        link := { s.link with txValid := false } })) ∧
    (e.rst = false → e.command = none →
      step s = .next { s with edges := rest, link := { s.link with txValid := false } })

/-- With no input listed, an edge is an idle edge. The model's choice: log entry 3. -/
def Obligations.SilentPortsIdle : Prop :=
  ∀ s : State, s.params.Valid → s.edges = [] →
    step s = .next { s with link := { s.link with txValid := false } }

/-- R212: an illegal word sets CMD_ERR, its opcode field is captured if it is the first, the strobe drops, and no component state
changes. -/
def Obligations.IllegalCommandIsDiscarded : Prop :=
  ∀ (s : State) (e : Edge) (c : Issue) (rest : List Edge) (x : DecodeError),
    s.params.Valid → s.edges = e :: rest → e.rst = false → e.command = some c → decode c.word = .error x →
    step s = .next { s with
      edges := rest
      err := { cmdErr := true, errOp := if s.err.cmdErr then s.err.errOp else BitVec.ofNat 4 (bitsOf c.word 63 60) }
      link := { s.link with txValid := false } }

/-- R250, R251: an edge with `RST = 1` gives every register its reset value and ignores the command port, whatever it carries. -/
def Obligations.ResetEdgeLoadsEveryResetValue : Prop :=
  ∀ (s : State) (e : Edge) (rest : List Edge), s.params.Valid → s.edges = e :: rest → e.rst = true →
    ∃ t, step s = .next t ∧
      t.drv.raw = false ∧ t.sdc.raw = false ∧ t.drv.latch = false ∧ t.sdc.latch = false ∧
      t.acc.sa = 0 ∧ t.acc.sb = 0 ∧ t.acc.avg = 0 ∧ t.acc.dev = 0 ∧ t.acc.hist = 0b000#3 ∧ t.acc.fault = true ∧
      t.acc.rel = 0 ∧ t.acc.torque = 0 ∧
      t.tickCount = 0 ∧ t.wd.lastHb = 0 ∧ t.wd.elapsed = 0 ∧ t.wd.failCnt = 0 ∧
      t.wd.req = false ∧ t.wd.timeout = false ∧ t.wd.sendFail = false ∧
      t.seq.state = .init ∧ t.seq.airEn = false ∧ t.seq.tqEn = false ∧ t.seq.sdcOpen = false ∧ t.seq.driveEn = false ∧
      t.seq.fcWd = false ∧ t.seq.fcSdc = false ∧
      t.link.flags = 0b0000#4 ∧ t.link.batt = 0 ∧ t.link.torque = 0 ∧ t.link.txCnt = 0 ∧ t.link.txValid = false ∧
      t.err.cmdErr = false ∧ t.err.errOp = 0

/-- The image of the read port and the pins after reset, for any parameters: `ACC_STAT = 0x08`, every other address 0; AIR_PLUS = 0,
AIR_MINUS = 1, RTD = 0 (R251, R252, R72, R73). That `State.reset` has the reference parameters and no input is the model's choice:
log entries 1 and 3. -/
def Obligations.ResetImageAndPins : Prop :=
  State.reset = State.resetWith Params.reference [] ∧
  ∀ (p : Params) (es : List Edge),
    (∀ a : BitVec 8, readPort (State.resetWith p es) a = if a = 0x06#8 then 0x08#32 else 0#32) ∧
    airPlus (State.resetWith p es) = false ∧ airMinus (State.resetWith p es) = true ∧ rtd (State.resetWith p es) = false

/-- No step, command or reset changes the parameters (R254 (4), R11). -/
def Obligations.ParametersNeverChange : Prop :=
  ∀ s t : State, step s = .next t → t.params = s.params

/-- A parameter record that breaks a constraint is refused at every edge, and only such a record is; nothing faults
(R11, 93_implementation_defined.md; log entry 2). -/
def Obligations.OnlyInvalidParametersAreRefused : Prop :=
  ∀ s : State,
    (¬ s.params.Valid → step s = .refused .parametersBreakConstraint) ∧
    (s.params.Valid → ∃ t, step s = .next t)

/-- R56: the strobe is 1 after an edge that executed CYCLE and 0 after any other edge. -/
def Obligations.StrobeMarksCycleEdges : Prop :=
  ∀ s t : State, step s = .next t → t.link.txValid = isCycle (presented s)

/-! ### The read port and the pins -/

/-- R72: the register map, bit by bit as numbers; bits not listed read 0. -/
def Obligations.RegisterMapIsAsListed : Prop :=
  ∀ s : State,
    (readPort s 0x00#8).toNat = s.seq.airEn.toNat + 2 * s.seq.tqEn.toNat + 4 * s.seq.sdcOpen.toNat
      + 8 * s.seq.driveEn.toNat
      + 16 * (match s.seq.state with | .init => 0 | .armed => 1 | .driving => 2 | .faultShutdown => 3)
      + 64 * s.seq.fcWd.toNat + 128 * s.seq.fcSdc.toNat ∧
    (readPort s 0x01#8).toNat = s.drv.raw.toNat + 2 * s.drv.latch.toNat + 4 * s.sdc.raw.toNat + 8 * s.sdc.latch.toNat ∧
    (readPort s 0x02#8).toNat = s.acc.sa.toNat ∧
    (readPort s 0x03#8).toNat = s.acc.sb.toNat ∧
    (readPort s 0x04#8).toNat = s.acc.avg.toNat ∧
    (readPort s 0x05#8).toNat = s.acc.dev.toNat ∧
    (readPort s 0x06#8).toNat = s.acc.hist.toNat + 8 * s.acc.fault.toNat + 16 * s.acc.rel.toNat ∧
    (readPort s 0x07#8).toNat = s.acc.torque.toNat ∧
    (readPort s 0x08#8).toNat = s.wd.req.toNat + 2 * s.wd.timeout.toNat + 4 * s.wd.sendFail.toNat ∧
    (readPort s 0x09#8).toNat = s.wd.elapsed.toNat ∧
    (readPort s 0x0A#8).toNat = s.wd.failCnt.toNat ∧
    (readPort s 0x0B#8).toNat = s.wd.lastHb.toNat ∧
    (readPort s 0x0C#8).toNat = s.tickCount.toNat ∧
    (readPort s 0x0D#8).toNat = s.link.flags.toNat + 16 * s.link.txValid.toNat ∧
    (readPort s 0x0E#8).toNat = s.link.batt.toNat ∧
    (readPort s 0x0F#8).toInt = s.link.torque.toInt ∧
    (readPort s 0x10#8).toNat = s.link.txCnt.toNat ∧
    (readPort s 0x11#8).toNat = s.err.cmdErr.toNat + 16 * s.err.errOp.toNat

/-- R73: every address from 0x12 reads 0, and `getValue` of any index but 0 and 1 is 0; indices 0 and 1 are the stored samples. -/
def Obligations.UnmappedReadsReturnZero : Prop :=
  ∀ s : State,
    (∀ a : BitVec 8, 0x12 ≤ a.toNat → readPort s a = 0) ∧
    getValue s 0 = readPort s 0x02#8 ∧ getValue s 1 = readPort s 0x03#8 ∧
    (∀ k : Nat, 2 ≤ k → getValue s k = 0)

/-- A read presented with a command sees the registers before that command's edge, whatever the command: RDATA depends on RADDR and the
registers alone (R71, R255). -/
def Obligations.ReadSeesTheStateBeforeTheEdge : Prop :=
  ∀ (s : State) (e : Edge) (rest : List Edge), s.edges = e :: rest →
    rdata s = readPort { s with edges := [] } e.raddr ∧
    ∀ (e' : Edge) (rest' : List Edge), e'.raddr = e.raddr → rdata { s with edges := e' :: rest' } = rdata s

/-- The pins change only at an edge that executes CYCLE or SEQ_RESET, or at a reset edge; and after a CYCLE they show its outputs: AIR_MINUS is
that cycle's shutdown-circuit sample (R58, R59, R171). -/
def Obligations.PinsChangeOnlyWithTheSequencer : Prop :=
  (∀ s t : State, step s = .next t → (presented s).rst = false → isCycle (presented s) = false →
    executedBy (presented s) ≠ some .seqReset →
    airPlus t = airPlus s ∧ airMinus t = airMinus s ∧ rtd t = rtd s) ∧
  (∀ (s : State) (drv sdc : Bool) (batt sb sa : BitVec 16), s.params.Valid →
    ∃ t, exec (.cycle drv sdc batt sb sa) s = .next t ∧
      airPlus t = (t.seq.state == .armed || t.seq.state == .driving) ∧ airMinus t = sdc ∧
      rtd t = (t.seq.state == .driving))

/-! ### NOP and the Switch Debouncer -/

/-- R210: NOP writes the strobe only, and the all-zero word alone is a NOP: a word with `OP = 0x0` and any other bit set is illegal. -/
def Obligations.NopWritesTheStrobeOnly : Prop :=
  (∀ s : State, s.params.Valid → exec .nop s = .next { s with link := { s.link with txValid := false } }) ∧
  (∀ w : Word, (decode w = .ok .nop ↔ w = 0) ∧
    (bitsOf w 63 60 = 0 → w ≠ 0 → ∃ x, decode w = .error x ∧ x.op = 0))

/-- The latch is set on a rising edge, the sample recorded, the other instance and all other state unchanged (R111), but for the strobe,
which R56 clears after every edge that is no CYCLE; that R56 goes before R111's words there is the model's reading, log entry 6 (DEDUCED). -/
def Obligations.DebUpdateLatchesRisingEdges : Prop :=
  ∀ (raw : Bool) (s : State), s.params.Valid →
    exec (.debUpdate .drv raw) s = .next { s with
      drv := { raw := raw, latch := if raw = true ∧ s.drv.raw = false then true else s.drv.latch }
      link := { s.link with txValid := false } } ∧
    exec (.debUpdate .sdc raw) s = .next { s with
      sdc := { raw := raw, latch := if raw = true ∧ s.sdc.raw = false then true else s.sdc.latch }
      link := { s.link with txValid := false } }

/-- The latch is cleared, the recorded sample and all other state unchanged (R112), but for the strobe, which R56 clears; that it does so here
too is the model's reading, log entry 6 (DEDUCED). -/
def Obligations.DebResetClearsTheLatchOnly : Prop :=
  ∀ s : State, s.params.Valid →
    exec (.debReset .drv) s = .next { s with
      drv := { raw := s.drv.raw, latch := false }, link := { s.link with txValid := false } } ∧
    exec (.debReset .sdc) s = .next { s with
      sdc := { raw := s.sdc.raw, latch := false }, link := { s.link with txValid := false } }

/-- A one-update pulse stays latched, and a switch held over a DEB_RESET does not latch again (R111, R112; the spec's own
inference R113). -/
def Obligations.PulseStaysLatchedAndHeldSwitchDoesNotRelatch : Prop :=
  ∀ (i : DebSel) (s : State), s.params.Valid →
    (∃ s1 s2 s3, exec (.debUpdate i false) s = .next s1 ∧ exec (.debUpdate i true) s1 = .next s2 ∧
      exec (.debUpdate i false) s2 = .next s3 ∧ (getDeb s3 i).latch = true) ∧
    (∃ s1 s2 s3, exec (.debUpdate i true) s = .next s1 ∧ exec (.debReset i) s1 = .next s2 ∧
      exec (.debUpdate i true) s2 = .next s3 ∧ (getDeb s3 i).latch = false)

/-- A set latch leaves latched only by DEB_RESET of its instance, SEQ_RESET, a reset edge, or the sequencer's consumption: DRV in any CYCLE,
SDC in a CYCLE that starts in INIT (R34, R173, R174; the spec's own inference R113). -/
def Obligations.LatchIsClearedOnlyByItsResets : Prop :=
  ∀ s t : State, step s = .next t → (presented s).rst = false →
    (s.drv.latch = true → t.drv.latch = false →
      executedBy (presented s) = some (.debReset .drv) ∨ executedBy (presented s) = some .seqReset ∨
      isCycle (presented s) = true) ∧
    (s.sdc.latch = true → t.sdc.latch = false →
      executedBy (presented s) = some (.debReset .sdc) ∨ executedBy (presented s) = some .seqReset ∨
      (isCycle (presented s) = true ∧ s.seq.state = .init))

/-! ### The Accelerator Monitor -/

/-- Every register of one evaluation as a number, computed from the operands and the registers before (R129 with its steps R121 to R128); no
sequencer, debouncer or watchdog register is written, and of the link registers the strobe alone, which R56 clears; that R56 goes before
R129's words there is the model's reading, log entry 6 (DEDUCED). -/
def Obligations.AccSetEvaluatesTheMonitor : Prop :=
  ∀ (s : State) (sb sa : BitVec 16) (a b avg d q dev : Nat) (edge released fault1 : Bool), s.params.Valid →
    a = (if sa.toNat ≤ 1023 then sa.toNat else 0) →
    b = (if sb.toNat ≤ 1023 then sb.toNat else 0) →
    avg = (a + b) / 2 →
    d = max (max a avg - min a avg) (max b avg - min b avg) →
    q = (if avg < s.params.midScale then d * 100 / (1023 - avg) else d * 100 / s.params.moveRange) →
    dev = min q 100 →
    edge = (decide (s.acc.hist.toNat % 4 = 3) && decide (dev > s.params.devThr) && !s.acc.fault) →
    released = (decide (a < s.params.vLow) && decide (b < s.params.vLow)) →
    fault1 = (s.acc.fault || edge) →
    ∃ t, exec (.accSet sb sa) s = .next t ∧
      t = { s with acc := t.acc, link := { s.link with txValid := false } } ∧
      t.acc.sa.toNat = a ∧ t.acc.sb.toNat = b ∧ t.acc.dev.toNat = dev ∧
      t.acc.avg.toNat = avg ∧ avg ≤ 1023 ∧ min a b ≤ avg ∧ avg ≤ max a b ∧
      t.acc.hist.toNat = 2 * (s.acc.hist.toNat % 4) + (if dev > s.params.devThr then 1 else 0) ∧
      t.acc.rel.toNat = (if edge then 0 else if released then min (s.acc.rel.toNat + 1) 2 else 0) ∧
      t.acc.fault = (if fault1 = true ∧ t.acc.rel.toNat = 2 then false else fault1) ∧
      t.acc.torque.toNat =
        (if t.acc.fault then 0
         else if min a b ≤ s.params.vMinAct then 0
         else if s.params.vMax ≤ min a b then s.params.tMax
         else (min a b - s.params.vMinAct) * s.params.tMax / (s.params.vMax - s.params.vMinAct))

/-- The torque map is monotone, 0 at `V_MIN_ACT`, `T_MAX` at `V_MAX`, never above `T_MAX` (R128). -/
def Obligations.TorqueMapIsMonotoneBetweenItsEnds : Prop :=
  ∀ p : Params, p.Valid →
    torqueMap p p.vMinAct = 0 ∧ torqueMap p p.vMax = p.tMax ∧
    (∀ m, torqueMap p m ≤ p.tMax) ∧ (∀ m n, m ≤ n → torqueMap p m ≤ torqueMap p n)

/-- CYCLE evaluates the monitor exactly as ACC_SET on the same samples does, whatever its other operands (R129, R177, R258). -/
def Obligations.CycleRunsTheSameEvaluation : Prop :=
  ∀ (s : State) (drv sdc : Bool) (batt sb sa : BitVec 16), s.params.Valid →
    ∃ t u, exec (.cycle drv sdc batt sb sa) s = .next t ∧ exec (.accSet sb sa) s = .next u ∧ t.acc = u.acc

/-- A sensor fault latches only in the third of three consecutive exceeding evaluations, and never on fewer (R125; the spec's own
inference R130 (c)). The deviations are those the three evaluations leave in ACC_DEV. -/
def Obligations.FaultLatchesOnThirdExceedanceOnly : Prop :=
  ∀ (s s1 s2 s3 : State) (a1 b1 a2 b2 a3 b3 : BitVec 16),
    exec (.accSet b1 a1) s = .next s1 → exec (.accSet b2 a2) s1 = .next s2 → exec (.accSet b3 a3) s2 = .next s3 →
    s2.acc.fault = false →
    (s3.acc.fault = true ↔
      s1.acc.dev.toNat > s.params.devThr ∧ s2.acc.dev.toNat > s.params.devThr ∧ s3.acc.dev.toNat > s.params.devThr)

/-- A latched fault is cleared only in the second of two consecutive evaluations with both pedals below V_LOW, neither a fault
edge (R126, R127; the spec's own inference R130 (d)). -/
def Obligations.FaultClearsOnlyAfterTwoReleases : Prop :=
  ∀ (s s1 s2 : State) (a1 b1 a2 b2 : BitVec 16),
    exec (.accSet b1 a1) s = .next s1 → exec (.accSet b2 a2) s1 = .next s2 →
    s1.acc.fault = true → s2.acc.fault = false →
    s.acc.fault = true ∧
    s1.acc.sa.toNat < s.params.vLow ∧ s1.acc.sb.toNat < s.params.vLow ∧
    s2.acc.sa.toNat < s.params.vLow ∧ s2.acc.sb.toNat < s.params.vLow

/-- From no fault, three plausible evaluations leave no fault, and each gives the mapped torque of the lower stored sample
(90_conflicts.md C1; the spec's own inference R130 (e)). -/
def Obligations.PlausibleSamplesGiveTheMappedTorque : Prop :=
  ∀ (s s1 s2 s3 : State) (a1 b1 a2 b2 a3 b3 : BitVec 16),
    exec (.accSet b1 a1) s = .next s1 → exec (.accSet b2 a2) s1 = .next s2 → exec (.accSet b3 a3) s2 = .next s3 →
    s.acc.fault = false → s1.acc.dev.toNat ≤ s.params.devThr → s2.acc.dev.toNat ≤ s.params.devThr →
    s3.acc.dev.toNat ≤ s.params.devThr →
    s1.acc.fault = false ∧ s2.acc.fault = false ∧ s3.acc.fault = false ∧
    s1.acc.torque.toNat = torqueMap s.params (min s1.acc.sa.toNat s1.acc.sb.toNat) ∧
    s2.acc.torque.toNat = torqueMap s.params (min s2.acc.sa.toNat s2.acc.sb.toNat) ∧
    s3.acc.torque.toNat = torqueMap s.params (min s3.acc.sa.toNat s3.acc.sb.toNat)

/-- Over any deviation formula that stays in 0..100 (D30, 93_implementation_defined.md; log entry 8), an evaluation leaves the monitor in range,
with torque 0 whenever the fault is latched, and latches only on a history of three true slots. -/
def Obligations.MonitorStaysInRangeForAnyFormula : Prop :=
  ∀ (f : DevFormula) (p : Params) (x : Accelerator) (sa sb : BitVec 16), p.Valid → (∀ a b avg, f a b avg ≤ 100) →
    MonitorInRange p (accEvalWith f p x sa sb) ∧
    (x.fault = false → (accEvalWith f p x sa sb).fault = true → (accEvalWith f p x sa sb).hist = 0b111#3)

/-! ### The Inverter Link Watchdog and the tick -/

/-- A matching heartbeat takes the timestamp and zeroes the elapsed time; any other identifier leaves the watchdog (R151). Either way nothing else
changes but the strobe, which R56 clears; that R56 goes before R151's words there is the model's reading, log entry 6 (DEDUCED). -/
def Obligations.HeartbeatRestartsTheWindow : Prop :=
  ∀ (id : BitVec 29) (s : State), s.params.Valid →
    exec (.wdHeartbeat id) s = .next { s with
      wd := if id = s.params.hbId then { s.wd with lastHb := s.tickCount, elapsed := 0 } else s.wd
      link := { s.link with txValid := false } }

/-- A success zeroes the count; a failure counts, saturating at 255, and raises the request past the threshold; no request or cause is ever
cleared (R152). Nothing else changes but the strobe, which R56 clears; that it does so here too is the model's reading, log entry 6 (DEDUCED). -/
def Obligations.SendResultCountsFailures : Prop :=
  ∀ s : State, s.params.Valid →
    exec (.wdSendResult true) s = .next { s with
      wd := { s.wd with failCnt := 0 }, link := { s.link with txValid := false } } ∧
    ∃ t, exec (.wdSendResult false) s = .next t ∧
      t = { s with wd := t.wd, link := { s.link with txValid := false } } ∧
      t.wd.failCnt.toNat = min (s.wd.failCnt.toNat + 1) 255 ∧
      t.wd = { s.wd with
        failCnt := t.wd.failCnt
        req := if min (s.wd.failCnt.toNat + 1) 255 > s.params.sfThr then true else s.wd.req
        sendFail := if min (s.wd.failCnt.toNat + 1) 255 > s.params.sfThr then true else s.wd.sendFail }

/-- TICK adds one modulo 2^32 (R153) and changes nothing else but the strobe, which R56 clears; that R56 goes before R153's words there is
the model's reading, log entry 6 (DEDUCED). -/
def Obligations.TickAdvancesTheCounterOnly : Prop :=
  ∀ s : State, s.params.Valid →
    ∃ t, exec .tick s = .next t ∧
      t = { s with tickCount := t.tickCount, link := { s.link with txValid := false } } ∧
      t.tickCount.toNat = (s.tickCount.toNat + 1) % 2 ^ 32

/-- R154: every CYCLE recomputes the elapsed time modulo 2^32 and raises the request past the bound; it writes no other watchdog
register. -/
def Obligations.CycleEvaluatesTheWatchdog : Prop :=
  ∀ (s : State) (drv sdc : Bool) (batt sb sa : BitVec 16) (el : Nat), s.params.Valid →
    el = (s.tickCount.toNat + 2 ^ 32 - s.wd.lastHb.toNat) % 2 ^ 32 →
    ∃ t, exec (.cycle drv sdc batt sb sa) s = .next t ∧
      t.wd.elapsed.toNat = el ∧
      t.wd = { s.wd with
        elapsed := t.wd.elapsed
        req := if el > s.params.hbTimeout then true else s.wd.req
        timeout := if el > s.params.hbTimeout then true else s.wd.timeout }

/-- R155: a raised request stays raised at every edge but SEQ_RESET and reset, and both of those clear it. -/
def Obligations.ShutdownRequestIsSticky : Prop :=
  (∀ s t : State, step s = .next t → s.wd.req = true →
    (t.wd.req = true ↔ (presented s).rst = false ∧ executedBy (presented s) ≠ some .seqReset))

/-- Over any run, WD_FAILCNT is the number of failures since the last success, SEQ_RESET or reset, capped at 255, whatever the other agents
do in between (R45, R152, R178; the spec's own inference R156 (b)). -/
def Obligations.FailureCounterCountsOverRuns : Prop :=
  ∀ (n : Nat) (s : State), s.params.Valid →
    ∃ t, core.run n s = .next t ∧
      t.wd.failCnt.toNat = min (failuresAfter s.wd.failCnt.toNat (s.edges.take n)) 255

/-- Over any run, TICK_COUNT counts the TICKs and LINK_TXCNT the CYCLEs since the last reset, modulo 2^32, whatever else happens
(R42, R55, R153, R176). -/
def Obligations.CountersCountOverRuns : Prop :=
  ∀ (n : Nat) (s : State), s.params.Valid →
    ∃ t, core.run n s = .next t ∧
      t.tickCount.toNat = ticksAfter s.tickCount.toNat (s.edges.take n) % 2 ^ 32 ∧
      t.link.txCnt.toNat = cyclesAfter s.link.txCnt.toNat (s.edges.take n) % 2 ^ 32

/-- A silent inverter is always detected: from the tick of a heartbeat (or of reset), if a run holds no matching heartbeat and no reset and more
than HB_TIMEOUT but fewer than 2^32 TICKs, then a CYCLE after it raises the request, shuts down and zeroes the forwarded torque
(R154, R171, R176; the premise is the host's duty of R256). -/
def Obligations.SilentInverterIsDetected : Prop :=
  ∀ (s : State) (es rest : List Edge) (c : Edge), s.params.Valid → s.edges = es ++ c :: rest →
    s.tickCount = s.wd.lastHb →
    (∀ e ∈ es, e.rst = false ∧ isHeartbeat s.params e = false) → c.rst = false → isCycle c = true →
    s.params.hbTimeout < ticksAfter 0 es → ticksAfter 0 es < 2 ^ 32 →
    ∃ t, core.run (es.length + 1) s = .next t ∧ t.wd.req = true ∧ t.wd.timeout = true ∧
      t.seq.state = .faultShutdown ∧ t.seq.airEn = false ∧ t.seq.tqEn = false ∧ t.seq.driveEn = false ∧
      t.link.torque = 0

/-! ### The Interlock Sequencer -/

/-- R171: the sequencer's evaluation in a CYCLE, in every state a State can hold, from the request that step 3 leaves, the latches that step 1
leaves and the enables before. -/
def Obligations.SequencerEvaluatesAsInPseudocode : Prop :=
  ∀ (s : State) (drv sdc : Bool) (batt sb sa : BitVec 16) (drvL sdcL sdcFlt : Bool), s.params.Valid →
    drvL = (s.drv.latch || (drv && !s.drv.raw)) →
    sdcL = (s.sdc.latch || (sdc && !s.sdc.raw)) →
    sdcFlt = ((s.seq.state == .armed || s.seq.state == .driving) && !sdc) →
    ∃ t, exec (.cycle drv sdc batt sb sa) s = .next t ∧
      (if s.seq.state = .faultShutdown ∨ t.wd.req = true ∨ sdcFlt = true then
        t.seq.state = .faultShutdown ∧ t.sdc.latch = sdcL ∧
        (if s.seq.state = .faultShutdown then t.seq.fcWd = s.seq.fcWd ∧ t.seq.fcSdc = s.seq.fcSdc
         else t.seq.fcWd = t.wd.req ∧ t.seq.fcSdc = sdcFlt)
      else
        t.seq.fcWd = s.seq.fcWd ∧ t.seq.fcSdc = s.seq.fcSdc ∧
        match s.seq.state with
        | .init => t.sdc.latch = false ∧ t.seq.state = (if sdcL = true ∧ sdc = true then .armed else .init)
        | .armed => t.sdc.latch = sdcL ∧
            t.seq.state = (if drvL = true ∧ s.seq.airEn = true ∧ s.seq.tqEn = true then .driving else .armed)
        | _ => t.sdc.latch = sdcL ∧ t.seq.state = .driving) ∧
      t.drv.latch = false ∧
      (t.seq.airEn = true ↔ t.seq.state = .armed ∨ t.seq.state = .driving) ∧
      (t.seq.tqEn = true ↔ t.seq.state = .armed ∨ t.seq.state = .driving) ∧
      (t.seq.driveEn = true ↔ t.seq.state = .driving) ∧
      t.seq.sdcOpen = !sdc

/-- Every CYCLE is the row of the truth table R172 that its state, request, sample and latches select; the request and the latches are
those that steps 1 and 3 of the same CYCLE leave (R171, R173, R177; R172 is the spec's own inference). -/
def Obligations.CycleFollowsTheTruthTable : Prop :=
  ∀ (s : State) (drv sdc : Bool) (batt sb sa : BitVec 16) (req drvL sdcL : Bool) (row : TableRow),
    s.params.Valid → FlagsFollowState s.seq →
    req = (s.wd.req || decide ((s.tickCount.toNat + 2 ^ 32 - s.wd.lastHb.toNat) % 2 ^ 32 > s.params.hbTimeout)) →
    drvL = (s.drv.latch || (drv && !s.drv.raw)) →
    sdcL = (s.sdc.latch || (sdc && !s.sdc.raw)) →
    row = truthTable s.seq.state req sdc sdcL drvL →
    ∃ t, exec (.cycle drv sdc batt sb sa) s = .next t ∧
      t.seq.state = row.state ∧ t.seq.airEn = row.air ∧ t.seq.tqEn = row.tq ∧ t.seq.driveEn = row.drive ∧
      t.seq.sdcOpen = !sdc ∧
      t.seq.fcWd = (match row.causes with | some (wd, _) => wd | none => s.seq.fcWd) ∧
      t.seq.fcSdc = (match row.causes with | some (_, open') => open' | none => s.seq.fcSdc) ∧
      t.sdc = { raw := sdc, latch := row.sdcLatch } ∧ t.drv = { raw := drv, latch := false }

/-- R173: every CYCLE in every state consumes the drive latch, so a press in any state but ARMED is lost; a switch held since an earlier cycle
does not drive, a latch in ARMED without both enables (R171; no run reaches that) does not drive, and a press in DRIVING does not end driving. -/
def Obligations.DriveLatchIsConsumedEveryCycle : Prop :=
  ∀ (s : State) (drv sdc : Bool) (batt sb sa : BitVec 16), s.params.Valid →
    ∃ t, exec (.cycle drv sdc batt sb sa) s = .next t ∧ t.drv.latch = false ∧
      (s.seq.state ≠ .armed → s.seq.state ≠ .driving → t.seq.driveEn = false) ∧
      (s.drv.raw = true → s.drv.latch = false → s.seq.state ≠ .driving → t.seq.driveEn = false) ∧
      (s.seq.state = .armed → s.seq.airEn = false ∨ s.seq.tqEn = false → t.seq.driveEn = false) ∧
      (s.seq.state = .driving → t.seq.state = .driving ∨ t.seq.state = .faultShutdown)

/-- R174: the SDC latch (as step 1 leaves it) is consumed only in an INIT cycle that stays out of FAULT_SHUTDOWN, which arms only if the loop is
closed in that cycle; in every other cycle it is left as it is. Once out of INIT the sequencer returns there only by SEQ_RESET or reset, and both
clear the latch. -/
def Obligations.SdcLatchIsConsumedInInitOnly : Prop :=
  (∀ (s : State) (drv sdc : Bool) (batt sb sa : BitVec 16) (sdcL : Bool), s.params.Valid →
    sdcL = (s.sdc.latch || (sdc && !s.sdc.raw)) →
    ∃ t, exec (.cycle drv sdc batt sb sa) s = .next t ∧
      (s.seq.state = .init → t.seq.state ≠ .faultShutdown →
        t.sdc.latch = false ∧ (t.seq.state = .armed ↔ sdcL = true ∧ sdc = true)) ∧
      (s.seq.state = .init → t.seq.state = .faultShutdown → t.sdc.latch = sdcL) ∧
      (s.seq.state ≠ .init → t.sdc.latch = sdcL ∧ t.seq.state ≠ .init)) ∧
  (∀ s t : State, step s = .next t →
    (s.seq.state ≠ .init → t.seq.state = .init → leavesShutdown (presented s) = true) ∧
    (leavesShutdown (presented s) = true → t.sdc.latch = false))

/-- R175: the CYCLE that enters FAULT_SHUTDOWN from another state writes both cause bits from the request and the open loop it saw; while the state
stays FAULT_SHUTDOWN they keep the entry cause. -/
def Obligations.CauseBitsAreWrittenOnEntryOnly : Prop :=
  ∀ (s : State) (drv sdc : Bool) (batt sb sa : BitVec 16), s.params.Valid →
    ∃ t, exec (.cycle drv sdc batt sb sa) s = .next t ∧
      (s.seq.state ≠ .faultShutdown → t.seq.state = .faultShutdown →
        t.seq.fcWd = t.wd.req ∧
        t.seq.fcSdc = ((s.seq.state == .armed || s.seq.state == .driving) && !sdc) ∧
        t.seq.airEn = false ∧ t.seq.tqEn = false ∧ t.seq.driveEn = false) ∧
      (s.seq.state = .faultShutdown → t.seq.fcWd = s.seq.fcWd ∧ t.seq.fcSdc = s.seq.fcSdc ∧
        t.seq.state = .faultShutdown) ∧
      (t.seq.state ≠ .faultShutdown → t.seq.fcWd = s.seq.fcWd ∧ t.seq.fcSdc = s.seq.fcSdc)

/-- R176: every CYCLE in every state writes a torque request: the flags it produced, the battery operand, the torque gated by DRIVE_EN and
adjusted in sign, the count and the strobe. -/
def Obligations.CycleIssuesTheTorqueRequest : Prop :=
  ∀ (s : State) (drv sdc : Bool) (batt sb sa : BitVec 16), s.params.Valid →
    ∃ t, exec (.cycle drv sdc batt sb sa) s = .next t ∧
      t.link.flags.toNat = t.seq.airEn.toNat + 2 * t.seq.tqEn.toNat + 4 * t.seq.sdcOpen.toNat + 8 * t.seq.driveEn.toNat ∧
      t.link.batt = batt ∧
      t.link.torque.toInt = (match s.params.torqueSign with | .plus => 1 | .minus => -1) *
        (if t.seq.driveEn then (t.acc.torque.toNat : Int) else 0) ∧
      t.link.txCnt.toNat = (s.link.txCnt.toNat + 1) % 2 ^ 32 ∧
      t.link.txValid = true

/-- CYCLE's frame (R177, "Not written"): TICK_COUNT, WD_LAST_HB, WD_FAILCNT, WD_SF, CMD_ERR, ERR_OP; and both debouncers record
its samples. -/
def Obligations.CycleLeavesTheRestUnchanged : Prop :=
  ∀ (s : State) (drv sdc : Bool) (batt sb sa : BitVec 16), s.params.Valid →
    ∃ t, exec (.cycle drv sdc batt sb sa) s = .next t ∧
      t.tickCount = s.tickCount ∧ t.wd.lastHb = s.wd.lastHb ∧ t.wd.failCnt = s.wd.failCnt ∧
      t.wd.sendFail = s.wd.sendFail ∧ t.err = s.err ∧ t.params = s.params ∧ t.edges = s.edges ∧
      t.drv.raw = drv ∧ t.sdc.raw = sdc

/-- R178, with the strobe of R56: SEQ_RESET returns to INIT, clears the flags it lists, and changes nothing else. -/
def Obligations.SeqResetReturnsToInit : Prop :=
  ∀ s : State, s.params.Valid →
    exec .seqReset s = .next { s with
      seq := { state := .init, airEn := false, tqEn := false, sdcOpen := s.seq.sdcOpen, driveEn := false,
               fcWd := false, fcSdc := false }
      drv := { raw := false, latch := false }
      sdc := { raw := false, latch := false }
      wd := { lastHb := s.wd.lastHb, elapsed := s.wd.elapsed, failCnt := 0, req := false, timeout := false,
              sendFail := false }
      link := { s.link with txValid := false } }

/-- DRIVE_EN rises only in a CYCLE that starts in ARMED with both enables, with a drive latch, no request and the loop closed (R171; the
spec's own inference R179 (b)). -/
def Obligations.DriveStartsOnlyFromArmed : Prop :=
  ∀ s t : State, FlagsFollowState s.seq → step s = .next t → s.seq.driveEn = false → t.seq.driveEn = true →
    ∃ drv batt sb sa, executedBy (presented s) = some (.cycle drv true batt sb sa) ∧
      s.seq.state = .armed ∧ s.seq.airEn = true ∧ s.seq.tqEn = true ∧
      (s.drv.latch = true ∨ (drv = true ∧ s.drv.raw = false)) ∧ t.wd.req = false

/-- A CYCLE that sees a request or, in ARMED or DRIVING, an open loop ends with all three enables and the forwarded torque at 0; and at the
end of any CYCLE a non-zero forwarded torque means drive on and no sensor fault (R171, R176; the spec's own inference R179 (c), (d); that (d)
speaks of the end of a CYCLE is log entry 7). -/
def Obligations.ShutdownCutsTheTorqueInTheSameCycle : Prop :=
  ∀ (s : State) (drv sdc : Bool) (batt sb sa : BitVec 16), s.params.Valid →
    ∃ t, exec (.cycle drv sdc batt sb sa) s = .next t ∧
      ((t.wd.req = true ∨ ((s.seq.state = .armed ∨ s.seq.state = .driving) ∧ sdc = false)) →
        t.seq.airEn = false ∧ t.seq.tqEn = false ∧ t.seq.driveEn = false ∧ t.link.torque = 0) ∧
      (t.link.torque ≠ 0 → t.seq.driveEn = true ∧ t.acc.fault = false)

/-- From FAULT_SHUTDOWN no run of commands of any agents, in any order, without SEQ_RESET and reset leaves it, and the outputs stay off (R171,
R178; the spec's own inference R179 (e)). -/
def Obligations.FaultShutdownIsTerminal : Prop :=
  ∀ (n : Nat) (s : State), s.params.Valid → s.seq.state = .faultShutdown → FlagsFollowState s.seq →
    (∀ e ∈ s.edges.take n, leavesShutdown e = false) →
    ∃ t, core.run n s = .next t ∧ t.seq.state = .faultShutdown ∧
      airPlus t = false ∧ rtd t = false ∧ t.seq.fcWd = s.seq.fcWd ∧ t.seq.fcSdc = s.seq.fcSdc

/-- The sequencer moves only to itself, from INIT to ARMED, from ARMED to DRIVING, into FAULT_SHUTDOWN, and back to INIT by SEQ_RESET or reset
(R171, R178, R229). -/
def Obligations.SequencerMovesAsDrawn : Prop :=
  ∀ s t : State, step s = .next t →
    allowedMove s.seq.state t.seq.state = true ∧
    (t.seq.state = .init → s.seq.state ≠ .init → leavesShutdown (presented s) = true) ∧
    (t.seq.state ≠ s.seq.state → leavesShutdown (presented s) = true ∨ isCycle (presented s) = true)

/-- R222: a sensor fault zeroes the torque, and hence the forwarded torque of a CYCLE; and no register of the monitor, a fault standing or absent
among them, and no sample has an effect on what a CYCLE leaves in the sequencer, the debouncers, the watchdog or the link, the forwarded torque
apart, nor on what an ACC_SET leaves in the sequencer and the pins. -/
def Obligations.SensorFaultOnlyZeroesTheTorque : Prop :=
  ∀ (s s' : State) (drv sdc : Bool) (batt sb sa sb' sa' : BitVec 16), s.params.Valid → s' = { s with acc := s'.acc } →
    ∃ t t', exec (.cycle drv sdc batt sb sa) s = .next t ∧ exec (.cycle drv sdc batt sb' sa') s' = .next t' ∧
      t'.seq = t.seq ∧ t'.drv = t.drv ∧ t'.sdc = t.sdc ∧ t'.wd = t.wd ∧
      t'.link = { t.link with torque := t'.link.torque } ∧
      (t.acc.fault = true → t.acc.torque = 0 ∧ t.link.torque = 0) ∧
      ∃ u, exec (.accSet sb sa) s = .next u ∧ u.seq = s.seq ∧
        airPlus u = airPlus s ∧ airMinus u = airMinus s ∧ rtd u = rtd s ∧ (u.acc.fault = true → u.acc.torque = 0)

/-- A send failure raises the request at once (R152), but the pins, the sequencer and the link registers keep their values until the next CYCLE,
which shuts down and forwards no torque (R171, R176, R257). Of the link registers the strobe alone changes, which R56 clears; that R56 goes
before R257's words there is the model's reading, log entry 6 (DEDUCED). -/
def Obligations.SendFailureActsAtTheNextCycle : Prop :=
  ∀ (s : State) (drv sdc : Bool) (batt sb sa : BitVec 16), s.params.Valid → s.params.sfThr ≤ s.wd.failCnt.toNat →
    ∃ t u, exec (.wdSendResult false) s = .next t ∧ exec (.cycle drv sdc batt sb sa) t = .next u ∧
      t.wd.req = true ∧ t.seq = s.seq ∧ airPlus t = airPlus s ∧ airMinus t = airMinus s ∧ rtd t = rtd s ∧
      t.link = { s.link with txValid := false } ∧
      u.seq.state = .faultShutdown ∧ airPlus u = false ∧ rtd u = false ∧ u.link.torque = 0

/-- The order of agents matters: there are a state and two interleavings of what the agents issue such that a heartbeat before a CYCLE keeps it
from timing out and the same heartbeat after it comes too late (R10, R259). -/
def Obligations.OrderOfAgentsMatters : Prop :=
  ∃ (s t u : State) (h c : Edge) (issued : Agent → List Word), s.params.Valid ∧
    h.rst = false ∧ isHeartbeat s.params h = true ∧ c.rst = false ∧ isCycle c = true ∧
    properEdge h = true ∧ properEdge c = true ∧ Interleaves [h, c] issued ∧ Interleaves [c, h] issued ∧
    core.run 2 { s with edges := [h, c] } = .next t ∧ core.run 2 { s with edges := [c, h] } = .next u ∧
    t.wd.req = false ∧ u.wd.req = true

/-! ### The whole machine -/

/-- Who writes what (R59; the debouncers R34, the link R52 to R55 and R176, the error capture R57). A command, an illegal word or an idle edge that is
not among a register's writers leaves it, but for the strobe, which R56 clears after every edge that is no CYCLE: the model's reading where a
command's own rule does not list it, log entry 6 (DEDUCED). And a read writes nothing: what an edge leaves does not depend on RADDR (R59, R71). -/
def Obligations.OnlyTheNamedCommandsWrite : Prop :=
  (∀ (i : Instr) (s : State), s.params.Valid → ∃ t, exec i s = .next t ∧
    (mnemonicOf i ≠ "CYCLE" → mnemonicOf i ≠ "SEQ_RESET" → t.seq = s.seq) ∧
    (mnemonicOf i ≠ "CYCLE" → mnemonicOf i ≠ "ACC_SET" → t.acc = s.acc) ∧
    (mnemonicOf i ≠ "TICK" → t.tickCount = s.tickCount) ∧
    (mnemonicOf i ≠ "WD_HEARTBEAT" → mnemonicOf i ≠ "WD_SEND_RESULT" → mnemonicOf i ≠ "CYCLE" →
      mnemonicOf i ≠ "SEQ_RESET" → t.wd = s.wd) ∧
    (mnemonicOf i ≠ "DEB_UPDATE" → mnemonicOf i ≠ "DEB_RESET" → mnemonicOf i ≠ "CYCLE" →
      mnemonicOf i ≠ "SEQ_RESET" → t.drv = s.drv ∧ t.sdc = s.sdc) ∧
    (mnemonicOf i ≠ "CYCLE" → t.link = { s.link with txValid := false }) ∧
    t.err = s.err ∧ t.params = s.params ∧ t.edges = s.edges) ∧
  (∀ s t : State, step s = .next t → (presented s).rst = false → executedBy (presented s) = none →
    t.seq = s.seq ∧ t.acc = s.acc ∧ t.tickCount = s.tickCount ∧ t.wd = s.wd ∧ t.drv = s.drv ∧ t.sdc = s.sdc ∧
    t.link = { s.link with txValid := false }) ∧
  (∀ (s : State) (e : Edge) (rest : List Edge) (a : BitVec 8), s.edges = e :: rest →
    step { s with edges := { e with raddr := a } :: rest } = step s)

/-- The invariants (a) to (g) of R60 are kept by every step, from every state that has them and for every input (R39, R41, R48, R49, R50, R171,
R178, R250; the spec's own inference R60). -/
def Obligations.InvariantsAreKeptByEveryStep : Prop :=
  ∀ s t : State, Invariants s → step s = .next t → Invariants t

/-- The invariants of R60, and those of R156 (a) and of the cause bits, hold after reset, for any parameters (R251). -/
def Obligations.InvariantsHoldAfterReset : Prop :=
  (∀ (p : Params) (es : List Edge), Invariants (State.resetWith p es) ∧
    RequestHasCause (State.resetWith p es).wd ∧ CauseOnlyInShutdown (State.resetWith p es).seq) ∧
  Invariants State.reset

/-- Every recorded cause is a cause: a watchdog request has a cause bit and a cause bit a request (R46, R47; the spec's own inference R156 (a)),
and the shutdown cause bits are set in FAULT_SHUTDOWN and only there (R175, R178). Every step keeps each of the two. -/
def Obligations.CauseRecordsAreKeptByEveryStep : Prop :=
  (∀ s t : State, RequestHasCause s.wd → step s = .next t → RequestHasCause t.wd) ∧
  (∀ s t : State, CauseOnlyInShutdown s.seq → step s = .next t → CauseOnlyInShutdown t.seq)

/-- Every fault event stays recorded, on the read port at its place, until an edge of its "cleared by" column (R221, R224). -/
def Obligations.FaultEventsStayObservable : Prop :=
  (∀ (e : FaultEvent) (s t : State), CauseOnlyInShutdown s.seq → step s = .next t →
    recorded e s = true → mayClear e (presented s) = false → recorded e t = true) ∧
  (∀ (e : FaultEvent) (s : State), (readPort s (recordedAt e).1).getLsbD (recordedAt e).2 = recorded e s)

/-- R104: `TICKS n` expands to n consecutive TICK lines, `TICKS 0` to nothing, and `IDLE n` stands for n edges with no command. -/
def Obligations.PseudoInstructionsExpand : Prop :=
  ∀ n : Nat,
    lineEdges (.ticks n) = assemble (List.replicate n (.command .tick)) ∧
    lineEdges (.ticks 0) = [] ∧
    (lineEdges (.idle n)).length = n ∧ (∀ e ∈ lineEdges (.idle n), e.rst = false ∧ e.command = none) ∧
    (∀ (s : State) (rest : List Edge), s.params.Valid → s.edges = lineEdges (.ticks n) ++ rest →
      ∃ t, core.run n s = .next t ∧ t.edges = rest ∧
        t = { s with tickCount := t.tickCount, link := t.link, edges := rest } ∧
        t.tickCount.toNat = (s.tickCount.toNat + n) % 2 ^ 32)
end

