-- ==== Sys2Proof/Laws/Encoding.lean ====
section
/-! SUPPORT. Words as numbers: what `field`, `flagAt` and `encode` are in arithmetic, so that questions of encoding go to omega. -/

namespace Sys2Proof

theorem field_toNat (w : Word) (lo n : Nat) : (field w lo n).toNat = w.toNat / 2 ^ lo % 2 ^ n := by
  simp only [field, BitVec.extractLsb'_toNat, Nat.shiftRight_eq_div_pow]

theorem flagAt_eq (w : Word) (k : Nat) : flagAt w k = decide (w.toNat / 2 ^ k % 2 = 1) := by
  simp only [flagAt, BitVec.getLsbD, Nat.testBit_eq_decide_div_mod_eq]

theorem field_eq_zero (w : Word) (lo n : Nat) : (field w lo n == 0) = decide (w.toNat / 2 ^ lo % 2 ^ n = 0) := by
  rw [← field_toNat, Bool.eq_iff_iff, beq_iff_eq, decide_eq_true_iff, ← BitVec.toNat_inj]
  rfl

theorem append_toNat {n m : Nat} (x : BitVec n) (y : BitVec m) : (x ++ y).toNat = x.toNat * 2 ^ m + y.toNat := by
  rw [BitVec.toNat_append, Nat.shiftLeft_eq, Nat.mul_comm, Nat.two_pow_add_eq_or_of_lt y.isLt]

theorem bit_toNat (b : Bool) : (bit b).toNat = b.toNat := by
  cases b <;> rfl

theorem encode_cycle_toNat (drv sdc : Bool) (batt sb sa : BitVec 16) :
    (encode (.cycle drv sdc batt sb sa)).toNat =
      2 ^ 60 + drv.toNat * 2 ^ 51 + sdc.toNat * 2 ^ 50 + batt.toNat * 2 ^ 32 + sb.toNat * 2 ^ 16 + sa.toNat := by
  simp only [encode, append_toNat, bit_toNat, BitVec.toNat_ofNat]
  omega

theorem encode_debUpdate_toNat (sel : DebSel) (raw : Bool) :
    (encode (.debUpdate sel raw)).toNat = 2 * 2 ^ 60 + sel.toBit.toNat * 2 ^ 8 + raw.toNat := by
  cases sel <;> cases raw <;> decide

theorem encode_debReset_toNat (sel : DebSel) :
    (encode (.debReset sel)).toNat = 3 * 2 ^ 60 + sel.toBit.toNat * 2 ^ 8 := by
  cases sel <;> decide

theorem encode_accSet_toNat (sb sa : BitVec 16) :
    (encode (.accSet sb sa)).toNat = 4 * 2 ^ 60 + sb.toNat * 2 ^ 16 + sa.toNat := by
  simp only [encode, append_toNat, BitVec.toNat_ofNat]
  omega

theorem encode_wdHeartbeat_toNat (id : BitVec 29) :
    (encode (.wdHeartbeat id)).toNat = 5 * 2 ^ 60 + id.toNat := by
  simp only [encode, append_toNat, BitVec.toNat_ofNat]
  omega

theorem encode_wdSendResult_toNat (success : Bool) :
    (encode (.wdSendResult success)).toNat = 6 * 2 ^ 60 + success.toNat := by
  cases success <;> decide

theorem ofBit_toBit (i : DebSel) : DebSel.ofBit i.toBit = i := by
  cases i <;> rfl

theorem toBit_ofBit (b : Bool) : (DebSel.ofBit b).toBit = b := by
  cases b <;> rfl

end Sys2Proof
end

