-- ==== Sys2Proof/Laws/State.lean ====
section
/-! SUPPORT. Each setter read back field by field, so that no proof unfolds a record update. -/

namespace Sys2Proof.Machine

variable (s : State)

/-! ### setDrv -/

@[simp] theorem setDrv_params (d : Debouncer) : (setDrv s d).params = s.params := rfl
@[simp] theorem setDrv_drv (d : Debouncer) : (setDrv s d).drv = d := rfl
@[simp] theorem setDrv_sdc (d : Debouncer) : (setDrv s d).sdc = s.sdc := rfl
@[simp] theorem setDrv_acc (d : Debouncer) : (setDrv s d).acc = s.acc := rfl
@[simp] theorem setDrv_tickCount (d : Debouncer) : (setDrv s d).tickCount = s.tickCount := rfl
@[simp] theorem setDrv_wd (d : Debouncer) : (setDrv s d).wd = s.wd := rfl
@[simp] theorem setDrv_seq (d : Debouncer) : (setDrv s d).seq = s.seq := rfl
@[simp] theorem setDrv_link (d : Debouncer) : (setDrv s d).link = s.link := rfl
@[simp] theorem setDrv_err (d : Debouncer) : (setDrv s d).err = s.err := rfl
@[simp] theorem setDrv_edges (d : Debouncer) : (setDrv s d).edges = s.edges := rfl

/-! ### setSdc -/

@[simp] theorem setSdc_params (d : Debouncer) : (setSdc s d).params = s.params := rfl
@[simp] theorem setSdc_drv (d : Debouncer) : (setSdc s d).drv = s.drv := rfl
@[simp] theorem setSdc_sdc (d : Debouncer) : (setSdc s d).sdc = d := rfl
@[simp] theorem setSdc_acc (d : Debouncer) : (setSdc s d).acc = s.acc := rfl
@[simp] theorem setSdc_tickCount (d : Debouncer) : (setSdc s d).tickCount = s.tickCount := rfl
@[simp] theorem setSdc_wd (d : Debouncer) : (setSdc s d).wd = s.wd := rfl
@[simp] theorem setSdc_seq (d : Debouncer) : (setSdc s d).seq = s.seq := rfl
@[simp] theorem setSdc_link (d : Debouncer) : (setSdc s d).link = s.link := rfl
@[simp] theorem setSdc_err (d : Debouncer) : (setSdc s d).err = s.err := rfl
@[simp] theorem setSdc_edges (d : Debouncer) : (setSdc s d).edges = s.edges := rfl

/-! ### setAcc -/

@[simp] theorem setAcc_params (x : Accelerator) : (setAcc s x).params = s.params := rfl
@[simp] theorem setAcc_drv (x : Accelerator) : (setAcc s x).drv = s.drv := rfl
@[simp] theorem setAcc_sdc (x : Accelerator) : (setAcc s x).sdc = s.sdc := rfl
@[simp] theorem setAcc_acc (x : Accelerator) : (setAcc s x).acc = x := rfl
@[simp] theorem setAcc_tickCount (x : Accelerator) : (setAcc s x).tickCount = s.tickCount := rfl
@[simp] theorem setAcc_wd (x : Accelerator) : (setAcc s x).wd = s.wd := rfl
@[simp] theorem setAcc_seq (x : Accelerator) : (setAcc s x).seq = s.seq := rfl
@[simp] theorem setAcc_link (x : Accelerator) : (setAcc s x).link = s.link := rfl
@[simp] theorem setAcc_err (x : Accelerator) : (setAcc s x).err = s.err := rfl
@[simp] theorem setAcc_edges (x : Accelerator) : (setAcc s x).edges = s.edges := rfl

/-! ### setTickCount -/

@[simp] theorem setTickCount_params (n : BitVec 32) : (setTickCount s n).params = s.params := rfl
@[simp] theorem setTickCount_drv (n : BitVec 32) : (setTickCount s n).drv = s.drv := rfl
@[simp] theorem setTickCount_sdc (n : BitVec 32) : (setTickCount s n).sdc = s.sdc := rfl
@[simp] theorem setTickCount_acc (n : BitVec 32) : (setTickCount s n).acc = s.acc := rfl
@[simp] theorem setTickCount_tickCount (n : BitVec 32) : (setTickCount s n).tickCount = n := rfl
@[simp] theorem setTickCount_wd (n : BitVec 32) : (setTickCount s n).wd = s.wd := rfl
@[simp] theorem setTickCount_seq (n : BitVec 32) : (setTickCount s n).seq = s.seq := rfl
@[simp] theorem setTickCount_link (n : BitVec 32) : (setTickCount s n).link = s.link := rfl
@[simp] theorem setTickCount_err (n : BitVec 32) : (setTickCount s n).err = s.err := rfl
@[simp] theorem setTickCount_edges (n : BitVec 32) : (setTickCount s n).edges = s.edges := rfl

/-! ### setWd -/

@[simp] theorem setWd_params (w : Watchdog) : (setWd s w).params = s.params := rfl
@[simp] theorem setWd_drv (w : Watchdog) : (setWd s w).drv = s.drv := rfl
@[simp] theorem setWd_sdc (w : Watchdog) : (setWd s w).sdc = s.sdc := rfl
@[simp] theorem setWd_acc (w : Watchdog) : (setWd s w).acc = s.acc := rfl
@[simp] theorem setWd_tickCount (w : Watchdog) : (setWd s w).tickCount = s.tickCount := rfl
@[simp] theorem setWd_wd (w : Watchdog) : (setWd s w).wd = w := rfl
@[simp] theorem setWd_seq (w : Watchdog) : (setWd s w).seq = s.seq := rfl
@[simp] theorem setWd_link (w : Watchdog) : (setWd s w).link = s.link := rfl
@[simp] theorem setWd_err (w : Watchdog) : (setWd s w).err = s.err := rfl
@[simp] theorem setWd_edges (w : Watchdog) : (setWd s w).edges = s.edges := rfl

/-! ### setSeq -/

@[simp] theorem setSeq_params (q : Sequencer) : (setSeq s q).params = s.params := rfl
@[simp] theorem setSeq_drv (q : Sequencer) : (setSeq s q).drv = s.drv := rfl
@[simp] theorem setSeq_sdc (q : Sequencer) : (setSeq s q).sdc = s.sdc := rfl
@[simp] theorem setSeq_acc (q : Sequencer) : (setSeq s q).acc = s.acc := rfl
@[simp] theorem setSeq_tickCount (q : Sequencer) : (setSeq s q).tickCount = s.tickCount := rfl
@[simp] theorem setSeq_wd (q : Sequencer) : (setSeq s q).wd = s.wd := rfl
@[simp] theorem setSeq_seq (q : Sequencer) : (setSeq s q).seq = q := rfl
@[simp] theorem setSeq_link (q : Sequencer) : (setSeq s q).link = s.link := rfl
@[simp] theorem setSeq_err (q : Sequencer) : (setSeq s q).err = s.err := rfl
@[simp] theorem setSeq_edges (q : Sequencer) : (setSeq s q).edges = s.edges := rfl

/-! ### setLink -/

@[simp] theorem setLink_params (l : Link) : (setLink s l).params = s.params := rfl
@[simp] theorem setLink_drv (l : Link) : (setLink s l).drv = s.drv := rfl
@[simp] theorem setLink_sdc (l : Link) : (setLink s l).sdc = s.sdc := rfl
@[simp] theorem setLink_acc (l : Link) : (setLink s l).acc = s.acc := rfl
@[simp] theorem setLink_tickCount (l : Link) : (setLink s l).tickCount = s.tickCount := rfl
@[simp] theorem setLink_wd (l : Link) : (setLink s l).wd = s.wd := rfl
@[simp] theorem setLink_seq (l : Link) : (setLink s l).seq = s.seq := rfl
@[simp] theorem setLink_link (l : Link) : (setLink s l).link = l := rfl
@[simp] theorem setLink_err (l : Link) : (setLink s l).err = s.err := rfl
@[simp] theorem setLink_edges (l : Link) : (setLink s l).edges = s.edges := rfl

/-! ### setErr -/

@[simp] theorem setErr_params (e : ErrorCapture) : (setErr s e).params = s.params := rfl
@[simp] theorem setErr_drv (e : ErrorCapture) : (setErr s e).drv = s.drv := rfl
@[simp] theorem setErr_sdc (e : ErrorCapture) : (setErr s e).sdc = s.sdc := rfl
@[simp] theorem setErr_acc (e : ErrorCapture) : (setErr s e).acc = s.acc := rfl
@[simp] theorem setErr_tickCount (e : ErrorCapture) : (setErr s e).tickCount = s.tickCount := rfl
@[simp] theorem setErr_wd (e : ErrorCapture) : (setErr s e).wd = s.wd := rfl
@[simp] theorem setErr_seq (e : ErrorCapture) : (setErr s e).seq = s.seq := rfl
@[simp] theorem setErr_link (e : ErrorCapture) : (setErr s e).link = s.link := rfl
@[simp] theorem setErr_err (e : ErrorCapture) : (setErr s e).err = e := rfl
@[simp] theorem setErr_edges (e : ErrorCapture) : (setErr s e).edges = s.edges := rfl

/-! ### setEdges -/

@[simp] theorem setEdges_params (es : List Edge) : (setEdges s es).params = s.params := rfl
@[simp] theorem setEdges_drv (es : List Edge) : (setEdges s es).drv = s.drv := rfl
@[simp] theorem setEdges_sdc (es : List Edge) : (setEdges s es).sdc = s.sdc := rfl
@[simp] theorem setEdges_acc (es : List Edge) : (setEdges s es).acc = s.acc := rfl
@[simp] theorem setEdges_tickCount (es : List Edge) : (setEdges s es).tickCount = s.tickCount := rfl
@[simp] theorem setEdges_wd (es : List Edge) : (setEdges s es).wd = s.wd := rfl
@[simp] theorem setEdges_seq (es : List Edge) : (setEdges s es).seq = s.seq := rfl
@[simp] theorem setEdges_link (es : List Edge) : (setEdges s es).link = s.link := rfl
@[simp] theorem setEdges_err (es : List Edge) : (setEdges s es).err = s.err := rfl
@[simp] theorem setEdges_edges (es : List Edge) : (setEdges s es).edges = es := rfl

/-! ### setDeb -/

@[simp] theorem setDeb_params (i : DebSel) (d : Debouncer) : (setDeb s i d).params = s.params := by cases i <;> rfl
@[simp] theorem setDeb_acc (i : DebSel) (d : Debouncer) : (setDeb s i d).acc = s.acc := by cases i <;> rfl
@[simp] theorem setDeb_tickCount (i : DebSel) (d : Debouncer) : (setDeb s i d).tickCount = s.tickCount := by cases i <;> rfl
@[simp] theorem setDeb_wd (i : DebSel) (d : Debouncer) : (setDeb s i d).wd = s.wd := by cases i <;> rfl
@[simp] theorem setDeb_seq (i : DebSel) (d : Debouncer) : (setDeb s i d).seq = s.seq := by cases i <;> rfl
@[simp] theorem setDeb_link (i : DebSel) (d : Debouncer) : (setDeb s i d).link = s.link := by cases i <;> rfl
@[simp] theorem setDeb_err (i : DebSel) (d : Debouncer) : (setDeb s i d).err = s.err := by cases i <;> rfl
@[simp] theorem setDeb_edges (i : DebSel) (d : Debouncer) : (setDeb s i d).edges = s.edges := by cases i <;> rfl

@[simp] theorem getDeb_drv : getDeb s .drv = s.drv := rfl

@[simp] theorem getDeb_sdc : getDeb s .sdc = s.sdc := rfl

@[simp] theorem setDeb_drv_eq (d : Debouncer) : setDeb s .drv d = setDrv s d := rfl

@[simp] theorem setDeb_sdc_eq (d : Debouncer) : setDeb s .sdc d = setSdc s d := rfl

@[simp] theorem getDeb_setDeb_self (i : DebSel) (d : Debouncer) : getDeb (setDeb s i d) i = d := by
  cases i <;> rfl

/-- The instances share no state (R32). -/
theorem getDeb_setDeb_other (i j : DebSel) (d : Debouncer) (h : j ≠ i) : getDeb (setDeb s i d) j = getDeb s j := by
  cases i <;> cases j <;> first | rfl | exact absurd rfl h

/-! ### The reset state -/

@[simp] theorem resetWith_params (p : Params) (es : List Edge) : (State.resetWith p es).params = p := rfl
@[simp] theorem resetWith_drv (p : Params) (es : List Edge) : (State.resetWith p es).drv = Debouncer.reset := rfl
@[simp] theorem resetWith_sdc (p : Params) (es : List Edge) : (State.resetWith p es).sdc = Debouncer.reset := rfl
@[simp] theorem resetWith_acc (p : Params) (es : List Edge) : (State.resetWith p es).acc = Accelerator.reset := rfl
@[simp] theorem resetWith_tickCount (p : Params) (es : List Edge) : (State.resetWith p es).tickCount = 0 := rfl
@[simp] theorem resetWith_wd (p : Params) (es : List Edge) : (State.resetWith p es).wd = Watchdog.reset := rfl
@[simp] theorem resetWith_seq (p : Params) (es : List Edge) : (State.resetWith p es).seq = Sequencer.reset := rfl
@[simp] theorem resetWith_link (p : Params) (es : List Edge) : (State.resetWith p es).link = Link.reset := rfl
@[simp] theorem resetWith_err (p : Params) (es : List Edge) : (State.resetWith p es).err = ErrorCapture.reset := rfl
@[simp] theorem resetWith_edges (p : Params) (es : List Edge) : (State.resetWith p es).edges = es := rfl

end Sys2Proof.Machine
end

