-- ==== Sys2Proof/Laws/Ops.lean ====
section
/-! SUPPORT. What each shared operation does, said once: every component that an operation writes and every component that it leaves. -/

namespace Sys2Proof.Machine

variable (s : State)

/-! ### How an edge ends -/

theorem retire_valid (t : State) (h : s.params.Valid) : retire s t = .next t := by
  simp only [retire, if_pos h]

theorem retire_invalid (t : State) (h : ¬ s.params.Valid) : retire s t = .refused .parametersBreakConstraint := by
  simp only [retire, if_neg h]

/-- The inversion of `retire`: everything a next state can be. -/
theorem retire_next (t u : State) : retire s t = .next u ↔ s.params.Valid ∧ t = u := by
  by_cases h : s.params.Valid
  · rw [retire_valid s t h]
    exact ⟨fun e => ⟨h, by injection e⟩, fun e => by rw [e.2]⟩
  · rw [retire_invalid s t h]
    exact ⟨fun e => (by injection e), fun e => absurd e.1 h⟩

/-! ### The strobe and the error capture -/

@[simp] theorem clearStrobe_link : (clearStrobe s).link = { s.link with txValid := false } := rfl
@[simp] theorem clearStrobe_params : (clearStrobe s).params = s.params := rfl
@[simp] theorem clearStrobe_drv : (clearStrobe s).drv = s.drv := rfl
@[simp] theorem clearStrobe_sdc : (clearStrobe s).sdc = s.sdc := rfl
@[simp] theorem clearStrobe_acc : (clearStrobe s).acc = s.acc := rfl
@[simp] theorem clearStrobe_tickCount : (clearStrobe s).tickCount = s.tickCount := rfl
@[simp] theorem clearStrobe_wd : (clearStrobe s).wd = s.wd := rfl
@[simp] theorem clearStrobe_seq : (clearStrobe s).seq = s.seq := rfl
@[simp] theorem clearStrobe_err : (clearStrobe s).err = s.err := rfl
@[simp] theorem clearStrobe_edges : (clearStrobe s).edges = s.edges := rfl

theorem raiseIllegal_eq (op : BitVec 4) :
    raiseIllegal s op =
      { s with
        err := { cmdErr := true, errOp := if s.err.cmdErr then s.err.errOp else op }
        link := { s.link with txValid := false } } := rfl

theorem hardwareReset_eq : hardwareReset s = State.resetWith s.params s.edges := rfl

/-! ### The debouncers -/

theorem debUpdate_eq (i : DebSel) (raw : Bool) :
    debUpdate s i raw =
      { s with
        drv := if i = .drv then debSample s.drv raw else s.drv
        sdc := if i = .sdc then debSample s.sdc raw else s.sdc } := by
  cases i <;> rfl

theorem debReset_eq (i : DebSel) :
    debReset s i =
      { s with
        drv := if i = .drv then debUnlatch s.drv else s.drv
        sdc := if i = .sdc then debUnlatch s.sdc else s.sdc } := by
  cases i <;> rfl

/-! ### The monitor -/

theorem accStep_eq (sa sb : BitVec 16) : accStep s sa sb = { s with acc := accEval s.params s.acc sa sb } := rfl

/-! ### The watchdog -/

/-- A heartbeat writes the timestamp and the elapsed time, on a match only (R151). -/
theorem heartbeat_eq (id : BitVec 29) :
    heartbeat s id =
      if id = s.params.hbId then { s with wd := { s.wd with lastHb := s.tickCount, elapsed := 0 } } else s := rfl

/-- A send result writes the count, the request and its cause only (R152). -/
theorem sendResult_eq (ok : Bool) :
    sendResult s ok =
      if ok then { s with wd := { s.wd with failCnt := 0 } }
      else { s with wd := { s.wd with
        failCnt := BitVec.ofNat 8 (failCountUp s.wd.failCnt)
        req := s.wd.req || decide (s.params.sfThr < failCountUp s.wd.failCnt)
        sendFail := s.wd.sendFail || decide (s.params.sfThr < failCountUp s.wd.failCnt) } } := rfl

/-- The watchdog evaluation writes the elapsed time, the request and its cause only (R154). -/
theorem wdEval_eq :
    wdEval s =
      { s with wd := { s.wd with
        elapsed := s.tickCount - s.wd.lastHb
        req := s.wd.req || decide (s.params.hbTimeout < (s.tickCount - s.wd.lastHb).toNat)
        timeout := s.wd.timeout || decide (s.params.hbTimeout < (s.tickCount - s.wd.lastHb).toNat) } } := rfl

/-! ### The sequencer -/

theorem seqNext_of_shutdown (sdc : Bool) (h : shutdownNow s.seq.state s.wd.req sdc = true) :
    seqNext s sdc = .faultShutdown := by
  simp only [seqNext, h, if_true]

/-- Everything a sequencer evaluation does: the state and the outputs that follow from it, the cause bits on entry, both
latches, and nothing else (R171). -/
theorem seqEval_eq (c : Bool) :
    seqEval s c =
      { s with
        drv := debUnlatch s.drv
        sdc := if shutdownNow s.seq.state s.wd.req c then s.sdc
          else if s.seq.state = .init then debUnlatch s.sdc else s.sdc
        seq :=
          { state := seqNext s c
            airEn := poweredState (seqNext s c)
            tqEn := poweredState (seqNext s c)
            sdcOpen := !c
            driveEn := seqNext s c == .driving
            fcWd := if shutdownNow s.seq.state s.wd.req c && s.seq.state != .faultShutdown then s.wd.req
              else s.seq.fcWd
            fcSdc := if shutdownNow s.seq.state s.wd.req c && s.seq.state != .faultShutdown
              then sdcFault s.seq.state c else s.seq.fcSdc } } := by
  obtain ⟨_, _, ⟨_, l⟩, _, _, ⟨_, _, _, req, _, _⟩, ⟨st, _, _, _, _, _, _⟩, _, _, _⟩ := s
  cases st <;> cases req <;> cases c <;> cases l <;> rfl

/-! ### The link -/

theorem linkOut_eq (batt : BitVec 16) :
    linkOut s batt =
      { s with link :=
        { flags := interlockFlags s.seq
          batt := batt
          torque := linkTorque s.params (gatedTorque s)
          txCnt := s.link.txCnt + 1
          txValid := true } } := rfl

/-- The forwarded torque as an integer: 32 bits hold either sign of any 16-bit torque (R176). -/
theorem linkTorque_toInt (p : Params) (t : BitVec 16) : (linkTorque p t).toInt = p.torqueSign.factor * t.toNat := by
  unfold linkTorque
  rw [BitVec.toInt_ofInt]
  have h := t.isLt
  cases p.torqueSign <;> simp only [Sign.factor, Int.bmod] <;> omega

theorem linkTorque_zero (p : Params) : linkTorque p 0 = 0 := by
  unfold linkTorque
  cases p.torqueSign <;> rfl

theorem returnToInit_eq :
    returnToInit s =
      { s with
        drv := Debouncer.reset
        sdc := Debouncer.reset
        wd := { s.wd with req := false, timeout := false, sendFail := false, failCnt := 0 }
        seq := { s.seq with
          state := .init, airEn := false, tqEn := false, driveEn := false, fcWd := false, fcSdc := false } } := rfl

end Sys2Proof.Machine
end

