-- ==== Sys2Proof/Laws/Exec.lean ====
section
/-! SUPPORT. What every command and every edge can do, said once: the effect of a command, and the inversion of `exec` and of `step`. -/

namespace Sys2Proof.Machine

/-- The state a command leads to. -/
def effect (i : Instr) (s : State) : State :=
  match i with
  | .nop => clearStrobe s
  | .cycle drv sdc batt sb sa => controlCycle drv sdc batt sb sa s
  | .debUpdate sel raw => clearStrobe (debUpdate s sel raw)
  | .debReset sel => clearStrobe (debReset s sel)
  | .accSet sb sa => clearStrobe (accStep s sa sb)
  | .wdHeartbeat id => clearStrobe (heartbeat s id)
  | .wdSendResult success => clearStrobe (sendResult s success)
  | .tick => clearStrobe (setTickCount s (s.tickCount + 1))
  | .seqReset => clearStrobe (returnToInit s)

theorem exec_eq_retire (i : Instr) (s : State) : exec i s = retire s (effect i s) := by
  cases i <;> rfl

/-- The inversion of `exec`. -/
theorem exec_next (i : Instr) (s t : State) : exec i s = .next t ↔ s.params.Valid ∧ effect i s = t := by
  rw [exec_eq_retire, retire_next]

/-- What an edge does to the registers (R74). -/
def edgeEffect (e : Edge) (s : State) : State :=
  if e.rst then hardwareReset s
  else match e.command with
    | none => clearStrobe s
    | some c =>
      match decode c.word with
      | .ok i => effect i s
      | .error x => raiseIllegal s x.op

@[simp] theorem consumeEdge_params (s : State) : (consumeEdge s).params = s.params := rfl

theorem step_eq_retire (s : State) :
    step s = retire (consumeEdge s) (edgeEffect (presented s) (consumeEdge s)) := by
  simp only [step, edgeEffect, resetEdge, idleEdge, illegalEdge, exec_eq_retire]
  cases (presented s).rst with
  | true => rfl
  | false =>
    cases (presented s).command with
    | none => rfl
    | some c => cases hd : decode c.word <;> simp only [hd] <;> rfl

/-- The inversion of `step`: a next state is the effect of the edge presented, under a valid parameter record. -/
theorem step_next (s t : State) :
    step s = .next t ↔ s.params.Valid ∧ edgeEffect (presented s) (consumeEdge s) = t := by
  rw [step_eq_retire, retire_next, consumeEdge_params]

theorem presented_cons (s : State) (e : Edge) (rest : List Edge) (h : s.edges = e :: rest) : presented s = e := by
  simp only [presented, h, List.headD_cons]

theorem consumeEdge_cons (s : State) (e : Edge) (rest : List Edge) (h : s.edges = e :: rest) :
    consumeEdge s = { s with edges := rest } := by
  simp only [consumeEdge, setEdges, h, List.tail_cons]

/-- The inversion of an edge: a reset, a command, an idle edge or an illegal word, and what each does. -/
theorem edge_cases (e : Edge) (s : State) :
    (e.rst = true ∧ executedBy e = none ∧ edgeEffect e s = hardwareReset s) ∨
    (e.rst = false ∧ ∃ i, executedBy e = some i ∧ edgeEffect e s = effect i s) ∨
    (e.rst = false ∧ executedBy e = none ∧ edgeEffect e s = clearStrobe s) ∨
    (e.rst = false ∧ executedBy e = none ∧ ∃ op, edgeEffect e s = raiseIllegal s op) := by
  unfold edgeEffect executedBy
  cases hr : e.rst with
  | true => exact .inl ⟨rfl, rfl, rfl⟩
  | false =>
    cases e.command with
    | none => exact .inr (.inr (.inl ⟨rfl, rfl, rfl⟩))
    | some c =>
      cases hd : decode c.word with
      | ok i => exact .inr (.inl ⟨rfl, i, by simp [hd, Except.toOption], by simp [hd]⟩)
      | error x => exact .inr (.inr (.inr ⟨rfl, by simp [hd, Except.toOption], x.op, by simp [hd]⟩))

/-! ### A control cycle, component by component -/

section
variable (drv sdc : Bool) (batt sb sa : BitVec 16) (s : State)

/-- The state that step 4 of a control cycle starts from (R177). -/
def beforeSequencer : State :=
  { s with drv := debSample s.drv drv, sdc := debSample s.sdc sdc, acc := accEval s.params s.acc sa sb, wd := (wdEval s).wd }

theorem controlCycle_eq :
    controlCycle drv sdc batt sb sa s = linkOut (seqEval (beforeSequencer drv sdc sb sa s) sdc) batt := rfl

theorem controlCycle_seq :
    (controlCycle drv sdc batt sb sa s).seq = (seqEval (beforeSequencer drv sdc sb sa s) sdc).seq := rfl

theorem controlCycle_acc : (controlCycle drv sdc batt sb sa s).acc = accEval s.params s.acc sa sb := by
  rw [controlCycle_eq, linkOut_eq, seqEval_eq]; rfl

theorem controlCycle_wd : (controlCycle drv sdc batt sb sa s).wd = (wdEval s).wd := by
  rw [controlCycle_eq, linkOut_eq, seqEval_eq]; rfl

theorem controlCycle_drv : (controlCycle drv sdc batt sb sa s).drv = ⟨drv, false⟩ := by
  rw [controlCycle_eq, linkOut_eq, seqEval_eq]; rfl

theorem controlCycle_tickCount : (controlCycle drv sdc batt sb sa s).tickCount = s.tickCount := by
  rw [controlCycle_eq, linkOut_eq, seqEval_eq]; rfl

theorem controlCycle_err : (controlCycle drv sdc batt sb sa s).err = s.err := by
  rw [controlCycle_eq, linkOut_eq, seqEval_eq]; rfl

theorem controlCycle_params : (controlCycle drv sdc batt sb sa s).params = s.params := by
  rw [controlCycle_eq, linkOut_eq, seqEval_eq]; rfl

theorem controlCycle_edges : (controlCycle drv sdc batt sb sa s).edges = s.edges := by
  rw [controlCycle_eq, linkOut_eq, seqEval_eq]; rfl

theorem controlCycle_txCnt : (controlCycle drv sdc batt sb sa s).link.txCnt = s.link.txCnt + 1 := by
  rw [controlCycle_eq, linkOut_eq, seqEval_eq]; rfl

/-- The forwarded torque is gated by the DRIVE_EN that the cycle produced (R176). -/
theorem controlCycle_linkTorque :
    (controlCycle drv sdc batt sb sa s).link.torque =
      linkTorque s.params (if (controlCycle drv sdc batt sb sa s).seq.driveEn
        then (controlCycle drv sdc batt sb sa s).acc.torque else 0) := by
  rw [controlCycle_eq, linkOut_eq, seqEval_eq]; rfl

end

/-! ### What each command leaves in each component -/

theorem effect_wd (i : Instr) (s : State) :
    (effect i s).wd = match i with
      | .cycle .. => (wdEval s).wd
      | .wdHeartbeat id => (heartbeat s id).wd
      | .wdSendResult ok => (sendResult s ok).wd
      | .seqReset => { s.wd with req := false, timeout := false, sendFail := false, failCnt := 0 }
      | _ => s.wd := by
  cases i <;> simp [effect, controlCycle_wd, debUpdate_eq, debReset_eq, accStep_eq, returnToInit_eq]

theorem effect_seq (i : Instr) (s : State) :
    (effect i s).seq = match i with
      | .cycle drv sdc _ sb sa => (seqEval (beforeSequencer drv sdc sb sa s) sdc).seq
      | .seqReset => { s.seq with
          state := .init, airEn := false, tqEn := false, driveEn := false, fcWd := false, fcSdc := false }
      | _ => s.seq := by
  cases i <;>
    simp [effect, controlCycle_seq, debUpdate_eq, debReset_eq, accStep_eq, returnToInit_eq, heartbeat_eq, sendResult_eq] <;>
    split <;> rfl

theorem effect_acc (i : Instr) (s : State) :
    (effect i s).acc = match i with
      | .cycle _ _ _ sb sa => accEval s.params s.acc sa sb
      | .accSet sb sa => accEval s.params s.acc sa sb
      | _ => s.acc := by
  cases i <;>
    simp [effect, controlCycle_acc, debUpdate_eq, debReset_eq, accStep_eq, returnToInit_eq, heartbeat_eq, sendResult_eq] <;>
    split <;> rfl

theorem effect_tickCount (i : Instr) (s : State) :
    (effect i s).tickCount = match i with
      | .tick => s.tickCount + 1
      | _ => s.tickCount := by
  cases i <;>
    simp [effect, controlCycle_tickCount, debUpdate_eq, debReset_eq, accStep_eq, returnToInit_eq, heartbeat_eq,
      sendResult_eq] <;>
    split <;> rfl

theorem effect_err (i : Instr) (s : State) : (effect i s).err = s.err := by
  cases i <;>
    simp [effect, controlCycle_err, debUpdate_eq, debReset_eq, accStep_eq, returnToInit_eq, heartbeat_eq, sendResult_eq] <;>
    split <;> rfl

theorem effect_link (i : Instr) (s : State) :
    (effect i s).link = match i with
      | .cycle drv sdc batt sb sa => (controlCycle drv sdc batt sb sa s).link
      | _ => { s.link with txValid := false } := by
  cases i with
  | debUpdate sel raw => simp only [effect, clearStrobe_link, debUpdate_eq]
  | debReset sel => simp only [effect, clearStrobe_link, debReset_eq]
  | wdHeartbeat id =>
    have h : (heartbeat s id).link = s.link := by rw [heartbeat_eq]; split <;> rfl
    simp only [effect, clearStrobe_link, h]
  | wdSendResult ok =>
    have h : (sendResult s ok).link = s.link := by rw [sendResult_eq]; split <;> rfl
    simp only [effect, clearStrobe_link, h]
  | _ => rfl

/-- A command keeps the parameters and the inputs still to come. -/
theorem effect_host_fields (i : Instr) (s : State) :
    (effect i s).params = s.params ∧ (effect i s).edges = s.edges := by
  cases i <;>
    simp only [effect, controlCycle, clearStrobe_params, clearStrobe_edges, linkOut_eq, seqEval_eq, wdEval_eq, accStep_eq,
      debUpdate_eq, debReset_eq, heartbeat_eq, sendResult_eq, returnToInit_eq, setTickCount_params, setTickCount_edges,
      and_self] <;>
    split <;> exact ⟨rfl, rfl⟩

/-- An edge keeps the parameters and the inputs still to come. -/
theorem edgeEffect_host_fields (e : Edge) (s : State) :
    (edgeEffect e s).params = s.params ∧ (edgeEffect e s).edges = s.edges := by
  unfold edgeEffect
  split
  · exact ⟨rfl, rfl⟩
  split
  · exact ⟨rfl, rfl⟩
  split
  · exact effect_host_fields _ s
  · exact ⟨rfl, rfl⟩

end Sys2Proof.Machine
end

