-- ==== Sys2Proof/Laws/Monitor.lean ====
section
/-! SUPPORT. The ranges of the monitor's intermediate values, and that the registers hold them exactly (R121 to R128). -/

namespace Sys2Proof.Machine

theorem clampSample_le (r : BitVec 16) : clampSample r ≤ 1023 := by
  unfold clampSample; split <;> simp_all [adcMax]

theorem average_le (a b : Nat) (ha : a ≤ 1023) (hb : b ≤ 1023) : average a b ≤ 1023 := by
  unfold average; omega

theorem min_le_average (a b : Nat) : min a b ≤ average a b := by
  unfold average; omega

theorem average_le_max (a b : Nat) : average a b ≤ max a b := by
  unfold average; omega

/-- The larger distance is the one of the larger sample (R123's remark). -/
theorem sampleDistance_average (a b : Nat) : sampleDistance a b (average a b) = max a b - average a b := by
  unfold sampleDistance absDiff average; omega

theorem deviation_le (p : Params) (a b avg : Nat) : deviation p a b avg ≤ 100 :=
  Nat.min_le_right _ _

theorem torqueMap_le (p : Params) (m : Nat) : torqueMap p m ≤ p.tMax := by
  unfold torqueMap
  split
  · exact Nat.zero_le _
  split
  · exact Nat.le_refl _
  · rename_i h1 h2
    exact Nat.div_le_of_le_mul (Nat.mul_le_mul_right _ (by omega))

theorem pushHistory_toNat (h : BitVec 3) (ex : Bool) :
    (pushHistory h ex).toNat = (2 * h.toNat + ex.toNat) % 8 := by
  revert h ex; decide

/-- Every register of an evaluation, as the number it holds: with a formula that stays in 0..100, nothing is
lost in the narrowing. -/
theorem accEvalWith_registers (dev : DevFormula) (p : Params) (x : Accelerator) (sa sb : BitVec 16)
    (hp : p.Valid) (hd : ∀ a b avg, dev a b avg ≤ 100) :
    let a := clampSample sa
    let b := clampSample sb
    let y := accEvalWith dev p x sa sb
    y.sa.toNat = a ∧ y.sb.toNat = b ∧ y.avg.toNat = average a b ∧ y.dev.toNat = dev a b (average a b) ∧
    y.torque.toNat = (if y.fault then 0 else torqueMap p (min a b)) := by
  have ha := clampSample_le sa
  have hb := clampSample_le sb
  have hv := average_le _ _ ha hb
  have hq := hd (clampSample sa) (clampSample sb) (average (clampSample sa) (clampSample sb))
  have ht := torqueMap_le p (min (clampSample sa) (clampSample sb))
  obtain ⟨-, -, -, -, -, -, hmax, -, -⟩ := hp
  refine ⟨?_, ?_, ?_, ?_, ?_⟩
  · exact (BitVec.toNat_ofNat _ _).trans (Nat.mod_eq_of_lt (by omega))
  · exact (BitVec.toNat_ofNat _ _).trans (Nat.mod_eq_of_lt (by omega))
  · exact (BitVec.toNat_ofNat _ _).trans (Nat.mod_eq_of_lt (by omega))
  · exact (BitVec.toNat_ofNat _ _).trans (Nat.mod_eq_of_lt (by omega))
  · refine (BitVec.toNat_ofNat _ _).trans (Nat.mod_eq_of_lt ?_)
    split <;> omega

theorem releaseCount_toNat (rel : BitVec 2) (edge released : Bool) :
    (releaseCount rel edge released).toNat =
      if edge then 0 else if released then min (rel.toNat + 1) 2 else 0 := by
  revert rel edge released; decide

end Sys2Proof.Machine
end

