-- ==== Sys2Proof/Laws/PerInstr.lean ====
section
/-! SUPPORT. Per-instruction laws. Family TableMatch: the encoded word of a command is a word of its own row of
spec/opcode_table.json. -/

namespace Sys2Proof.Laws

open Sys2Proof

/-- The word of `i` lies in the row that bears its mnemonic. -/
def TableMatch.Statement (i : Instr) : Prop :=
  ∃ r ∈ opcodeTable, r.mnemonic = mnemonicOf i ∧ encode i &&& r.mask = r.pattern

theorem TableMatch.nop : TableMatch.Statement .nop :=
  ⟨_, .head _, rfl, by decide⟩

theorem TableMatch.cycle (drv sdc : Bool) (batt sb sa : BitVec 16) :
    TableMatch.Statement (.cycle drv sdc batt sb sa) := by
  refine ⟨_, .tail _ (.head _), rfl, BitVec.eq_of_getLsbD_eq fun k hk => ?_⟩
  have h : (encode (.cycle drv sdc batt sb sa)).getLsbD k = _ := flagAt_eq _ k
  have hd := drv.toNat_lt
  have hs := sdc.toNat_lt
  rw [BitVec.getLsbD_and, h, encode_cycle_toNat]
  interval_cases k <;> simp <;> omega

theorem TableMatch.debUpdate (sel : DebSel) (raw : Bool) : TableMatch.Statement (.debUpdate sel raw) :=
  ⟨_, .tail _ (.tail _ (.head _)), rfl, by cases sel <;> cases raw <;> decide⟩

theorem TableMatch.debReset (sel : DebSel) : TableMatch.Statement (.debReset sel) :=
  ⟨_, .tail _ (.tail _ (.tail _ (.head _))), rfl, by cases sel <;> decide⟩

theorem TableMatch.accSet (sb sa : BitVec 16) : TableMatch.Statement (.accSet sb sa) := by
  refine ⟨_, .tail _ (.tail _ (.tail _ (.tail _ (.head _)))), rfl, BitVec.eq_of_getLsbD_eq fun k hk => ?_⟩
  have h : (encode (.accSet sb sa)).getLsbD k = _ := flagAt_eq _ k
  rw [BitVec.getLsbD_and, h, encode_accSet_toNat]
  interval_cases k <;> simp <;> omega

theorem TableMatch.wdHeartbeat (id : BitVec 29) : TableMatch.Statement (.wdHeartbeat id) := by
  refine ⟨_, .tail _ (.tail _ (.tail _ (.tail _ (.tail _ (.head _))))), rfl, BitVec.eq_of_getLsbD_eq fun k hk => ?_⟩
  have h : (encode (.wdHeartbeat id)).getLsbD k = _ := flagAt_eq _ k
  rw [BitVec.getLsbD_and, h, encode_wdHeartbeat_toNat]
  interval_cases k <;> simp <;> omega

theorem TableMatch.wdSendResult (success : Bool) : TableMatch.Statement (.wdSendResult success) :=
  ⟨_, .tail _ (.tail _ (.tail _ (.tail _ (.tail _ (.tail _ (.head _)))))), rfl, by cases success <;> decide⟩

theorem TableMatch.tick : TableMatch.Statement .tick :=
  ⟨_, .tail _ (.tail _ (.tail _ (.tail _ (.tail _ (.tail _ (.tail _ (.head _))))))), rfl, by decide⟩

theorem TableMatch.seqReset : TableMatch.Statement .seqReset :=
  ⟨_, .tail _ (.tail _ (.tail _ (.tail _ (.tail _ (.tail _ (.tail _ (.tail _ (.head _)))))))), rfl, by decide⟩

end Sys2Proof.Laws
end

