-- ==== Sys2Proof/Laws/Run.lean ====
section
/-! SUPPORT. The inductions over runs, packaged once: a run completes, keeps an invariant, and folds a quantity over the edges it takes. -/

namespace Sys2Proof.Machine

theorem run_succ (n : Nat) (s s' : State) (h : step s = .next s') : core.run (n + 1) s = core.run n s' := by
  have hc : core.step s = .next s' := h
  simp only [Host.Core.run, hc]

/-- A quantity that every step updates from the edge presented is, after a run, the fold of the edges taken. -/
theorem run_folds {α : Type} (f : State → α) (g : α → Edge → α) (hidle : ∀ a, g a Edge.idle = a)
    (hstep : ∀ s t, step s = .next t → f t = g (f s) (presented s)) (n : Nat) (s : State) (hv : s.params.Valid) :
    ∃ t, core.run n s = .next t ∧ t.params = s.params ∧ f t = (s.edges.take n).foldl g (f s) := by
  induction n generalizing s with
  | zero => exact ⟨s, rfl, rfl, rfl⟩
  | succ n ih =>
    have hs : step s = .next (edgeEffect (presented s) (consumeEdge s)) := (step_next _ _).2 ⟨hv, rfl⟩
    obtain ⟨hp, he⟩ := edgeEffect_host_fields (presented s) (consumeEdge s)
    have hq := hstep _ _ hs
    obtain ⟨t, hrun, htp, htf⟩ := ih (edgeEffect (presented s) (consumeEdge s)) (by rw [hp]; exact hv)
    refine ⟨t, ?_, htp.trans hp, ?_⟩
    · rw [run_succ n s _ hs, hrun]
    · rw [htf, he, hq]
      cases hc : s.edges with
      | nil => simp [presented, consumeEdge, hc, hidle]
      | cons e rest => simp [presented, consumeEdge, hc]

/-- An invariant that every step keeps holds after every run. -/
theorem run_keeps (P : State → Prop) (hstep : ∀ s t, P s → step s = .next t → P t) (n : Nat) (s : State)
    (hv : s.params.Valid) (h : P s) : ∃ t, core.run n s = .next t ∧ P t := by
  induction n generalizing s with
  | zero => exact ⟨s, rfl, h⟩
  | succ n ih =>
    have hs : step s = .next (edgeEffect (presented s) (consumeEdge s)) := (step_next _ _).2 ⟨hv, rfl⟩
    have hp := (edgeEffect_host_fields (presented s) (consumeEdge s)).1
    obtain ⟨t, hrun, ht⟩ := ih _ (by rw [hp]; exact hv) (hstep _ _ h hs)
    exact ⟨t, (run_succ n s _ hs).trans hrun, ht⟩

end Sys2Proof.Machine
end

