-- ==== Sys2Proof/Tests/Slice0.lean ====
section
/-! SUPPORT. The model's own tests. Every expected value comes from spec/ (the vector or the rule named in each docstring), none from the
model; then a witness for the hypotheses of each statement. -/

namespace Sys2Proof.Tests

open Sys2Proof Sys2Proof.Machine

/-! ### Helpers -/

/-- A block with the reference parameters, right after reset, with these inputs to come. -/
def start (es : List Edge) : State := State.resetWith Params.reference es

/-- The next state of an outcome. -/
def landed (o : Host.Outcome State Fault Refusal) : Option State :=
  match o with
  | .next t => some t
  | .fault _ => none
  | .refused _ => none

/-- What the read port shows at an address after an outcome. -/
def reads (o : Host.Outcome State Fault Refusal) (a : BitVec 8) : Option RData :=
  (landed o).map fun t => readPort t a

/-- Right after reset, with these sequencer registers. -/
def inState (st : SeqState) (on drive : Bool) : State :=
  { start [] with seq := { Sequencer.reset with state := st, airEn := on, tqEn := on, driveEn := drive } }

def armed : State := inState .armed true false

def driving : State := inState .driving true true

def shutdown : State := inState .faultShutdown false false

/-- Right after reset, with these monitor registers. -/
def monitor (hist : BitVec 3) (fault : Bool) (rel : BitVec 2) : State :=
  { start [] with acc := { Accelerator.reset with hist := hist, fault := fault, rel := rel } }

/-- An edge with `RST = 1` and a TICK word on the command port. -/
def resetAndTick : Edge := { commandEdge .tick with rst := true }

/-- An edge with the illegal word of V-CTL-2. -/
def illegalNine : Edge := wordEdge .controlLoop 0x9000000000000000#64

/-! ### Well-formed parameters: one record per check of R11 -/

theorem test_reference_parameters_valid : Params.reference.Valid := by decide

theorem test_parameters_refused_mid_scale :
    ¬ { Params.reference with midScale := 0 }.Valid ∧ ¬ { Params.reference with midScale := 1024 }.Valid := by decide

theorem test_parameters_refused_move_range :
    ¬ { Params.reference with moveRange := 0 }.Valid ∧ ¬ { Params.reference with moveRange := 65536 }.Valid := by decide

theorem test_parameters_refused_dev_thr : ¬ { Params.reference with devThr := 101 }.Valid := by decide

theorem test_parameters_refused_v_low : ¬ { Params.reference with vLow := 1025 }.Valid := by decide

theorem test_parameters_refused_v_order :
    ¬ { Params.reference with vMinAct := 940 }.Valid ∧ ¬ { Params.reference with vMax := 1024 }.Valid := by decide

theorem test_parameters_refused_t_max : ¬ { Params.reference with tMax := 65536 }.Valid := by decide

theorem test_parameters_refused_hb_timeout : ¬ { Params.reference with hbTimeout := 4294967295 }.Valid := by decide

theorem test_parameters_refused_sf_thr : ¬ { Params.reference with sfThr := 255 }.Valid := by decide

/-! ### Decode: words of 95_test_vectors.md 2.1, written out from the formats R93 to R98 -/

/-- V-ENC-1 -/
theorem test_decode_nop : decode 0x0000000000000000#64 = .ok .nop := by rfl

/-- V-ENC-4: 0x221 = 545 and 0x21C = 540, 0x190 = 400 -/
theorem test_decode_cycle : decode 0x100C01900221021C#64 = .ok (.cycle true true 400#16 545#16 540#16) := by rfl

/-- V-ENC-3: SDC is bit 50, not bit 51 -/
theorem test_decode_cycle_sdc_only : decode 0x1004019000000000#64 = .ok (.cycle false true 400#16 0#16 0#16) := by rfl

/-- V-ENC-8, V-ENC-9 -/
theorem test_decode_deb_update :
    decode 0x2000000000000101#64 = .ok (.debUpdate .sdc true) ∧
    decode 0x2000000000000001#64 = .ok (.debUpdate .drv true) := ⟨rfl, rfl⟩

/-- V-ENC-11 -/
theorem test_decode_deb_reset : decode 0x3000000000000100#64 = .ok (.debReset .sdc) := by rfl

/-- V-ENC-13: SA = 0x01F4 = 500 and SB = 0x0384 = 900 -/
theorem test_decode_acc_set : decode 0x40000000038401F4#64 = .ok (.accSet 900#16 500#16) := by rfl

/-- V-ENC-16 -/
theorem test_decode_wd_heartbeat : decode 0x500000001FFFFFFF#64 = .ok (.wdHeartbeat 0x1FFFFFFF#29) := by rfl

/-- V-ENC-18, V-ENC-19 -/
theorem test_decode_wd_send_result :
    decode 0x6000000000000001#64 = .ok (.wdSendResult true) ∧
    decode 0x6000000000000000#64 = .ok (.wdSendResult false) := ⟨rfl, rfl⟩

/-- V-ENC-21 -/
theorem test_decode_tick : decode 0x7000000000000000#64 = .ok .tick := by rfl

/-- V-ENC-23 -/
theorem test_decode_seq_reset : decode 0x8000000000000000#64 = .ok .seqReset := by rfl

/-- V-ENC-2, 5, 6, 10, 12, 14, 17, 20, 22: a reserved bit -/
theorem test_decode_reserved_bits :
    decode 0x0000000000000001#64 = .error (.reservedBits 0x0#4) ∧
    decode 0x1010000000000000#64 = .error (.reservedBits 0x1#4) ∧
    decode 0x1001000000000000#64 = .error (.reservedBits 0x1#4) ∧
    decode 0x2000000000000201#64 = .error (.reservedBits 0x2#4) ∧
    decode 0x3000000000000001#64 = .error (.reservedBits 0x3#4) ∧
    decode 0x4000000100000000#64 = .error (.reservedBits 0x4#4) ∧
    decode 0x5000000020000100#64 = .error (.reservedBits 0x5#4) ∧
    decode 0x6000000000000002#64 = .error (.reservedBits 0x6#4) ∧
    decode 0x7000000000000080#64 = .error (.reservedBits 0x7#4) ∧
    decode 0x8000000000000001#64 = .error (.reservedBits 0x8#4) := ⟨rfl, rfl, rfl, rfl, rfl, rfl, rfl, rfl, rfl, rfl⟩

/-- V-ENC-24 to 26: a reserved opcode -/
theorem test_decode_reserved_opcode :
    decode 0x9000000000000000#64 = .error (.reservedOpcode 0x9#4) ∧
    decode 0xF000000000000000#64 = .error (.reservedOpcode 0xF#4) ∧
    decode 0xFFFFFFFFFFFFFFFF#64 = .error (.reservedOpcode 0xF#4) := ⟨rfl, rfl, rfl⟩

/-- No two rows of spec/opcode_table.json share a word. -/
theorem test_table_rows_disjoint :
    opcodeTable.Pairwise fun r q => (r.pattern ^^^ q.pattern) &&& (r.mask &&& q.mask) ≠ 0#64 := by decide

/-- R75: byte k carries bits [8k+7:8k]; seven bytes are no command word. -/
theorem test_little_endian_adapter :
    bytesOfWord 0x100C01900221021C#64 = [0x1C#8, 0x02#8, 0x21#8, 0x02#8, 0x90#8, 0x01#8, 0x0C#8, 0x10#8] ∧
    wordOfBytes [0x1C#8, 0x02#8, 0x21#8, 0x02#8, 0x90#8, 0x01#8, 0x0C#8, 0x10#8] = some 0x100C01900221021C#64 ∧
    wordOfBytes [0#8, 0#8, 0#8, 0#8, 0#8, 0#8, 0#8] = none := ⟨rfl, rfl, rfl⟩

/-- The table's CYCLE row has bit 0 as its least significant bit. -/
theorem test_decode_table_word :
    decodeTableWord 64 0x1004019000000000 = some (.cycle false true 400#16 0#16 0#16) ∧
    decodeTableWord 64 0x9000000000000000 = none := ⟨rfl, rfl⟩

/-- The word given is what the next step runs: V-CYC-1 through `withFetchWord`. -/
theorem test_fetch_word_runs :
    reads (step (State.reset.withFetchWord 64 0x1004019000000000)) 0x0D#8 = some 0x13#32 := by decide

/-! ### Commands, one step each -/

/-- V-CYC-5: the strobe drops, the flags stay. -/
theorem test_nop_drops_strobe :
    reads (exec .nop { driving with link := { Link.reset with flags := 0xB#4, txValid := true } }) 0x0D#8
      = some 0x0B#32 := by decide

/-- V-CYC-1: SEQ=0x13, DEB=0x4, LINK_CTL=0x13, LINK_BATT=400. -/
theorem test_cycle_arms :
    reads (exec (.cycle false true 400#16 0#16 0#16) (start [])) 0x00#8 = some 0x13#32 ∧
    reads (exec (.cycle false true 400#16 0#16 0#16) (start [])) 0x01#8 = some 0x4#32 ∧
    reads (exec (.cycle false true 400#16 0#16 0#16) (start [])) 0x0E#8 = some 400#32 := by decide

/-- V-CYC-3: ACC_TORQUE=500, forwarded as -500. -/
theorem test_cycle_forwards_negated_torque :
    reads (exec (.cycle true true 400#16 545#16 540#16)
      { driving with drv := ⟨true, false⟩, sdc := ⟨true, false⟩, acc := (monitor 0 false 2).acc }) 0x0F#8
      = some 0xFFFFFE0C#32 := by decide

/-- V-DEB-1 and V-DEB-7. -/
theorem test_deb_update_latches :
    reads (exec (.debUpdate .drv true) (start [])) 0x01#8 = some 0x3#32 ∧
    reads (exec (.debUpdate .sdc true) (start [])) 0x01#8 = some 0xC#32 := by decide

/-- V-DEB-5, its last step: still held, so no re-latch. -/
theorem test_deb_update_held_switch :
    reads (exec (.debUpdate .drv true) { start [] with drv := ⟨true, false⟩ }) 0x01#8 = some 0x1#32 := by decide

/-- V-DEB-4, its last step: the latch is cleared and the sample kept. -/
theorem test_deb_reset_keeps_sample :
    reads (exec (.debReset .drv) { start [] with drv := ⟨true, true⟩ }) 0x01#8 = some 0x1#32 := by decide

/-- V-DEB-8, its last step: the other instance keeps its latch. -/
theorem test_deb_reset_other_instance :
    reads (exec (.debReset .drv) { start [] with sdc := ⟨true, true⟩ }) 0x01#8 = some 0xC#32 := by decide

/-- V-ACC-21: the third exceedance latches; hist 0b111, fault 1, rel 0. -/
theorem test_acc_set_latches_third :
    reads (exec (.accSet 900#16 500#16) (monitor 0b011 false 0)) 0x06#8 = some 0x0F#32 ∧
    reads (exec (.accSet 900#16 500#16) (monitor 0b011 false 0)) 0x07#8 = some 0#32 := by decide

/-- V-ACC-24: the second release clears with true slots left; hist 0b110, fault 0, rel 2, torque 10. -/
theorem test_acc_set_clears_second_release :
    reads (exec (.accSet 60#16 50#16) (monitor 0b111 true 1)) 0x06#8 = some 0x26#32 ∧
    reads (exec (.accSet 60#16 50#16) (monitor 0b111 true 1)) 0x07#8 = some 10#32 := by decide

/-- V-ACC-9, V-ACC-12c: the clamp and both branches of the deviation. -/
theorem test_deviation_branches :
    clampSample 2000#16 = 0 ∧ deviation Params.reference 0 500 250 = 32 ∧
    deviation Params.reference 0 1023 511 = 100 ∧ deviation Params.reference 600 822 711 = 11 := by decide

/-- V-WD-13: the example of rule R151. -/
theorem test_heartbeat_matches :
    reads (exec (.wdHeartbeat 0x100#29) { start [] with tickCount := 37 }) 0x0B#8 = some 37#32 := by decide

/-- V-WD-3, its heartbeat: a wrong identifier is ignored. -/
theorem test_heartbeat_other_identifier :
    reads (exec (.wdHeartbeat 0x101#29) { start [] with tickCount := 30 }) 0x0B#8 = some 0#32 := by decide

/-- R152's example: the 4th failure raises the request; WD_STAT=0x5. -/
theorem test_send_result_fourth_failure :
    reads (exec (.wdSendResult false) { start [] with wd := { Watchdog.reset with failCnt := 3 } }) 0x08#8
      = some 0x5#32 := by decide

/-- V-WD-8: saturation at 255. -/
theorem test_send_result_saturates :
    reads (exec (.wdSendResult false) { start [] with wd := { Watchdog.reset with failCnt := 255 } }) 0x0A#8
      = some 255#32 := by decide

/-- V-WD-11: the counter wraps. -/
theorem test_tick_wraps : reads (exec .tick { start [] with tickCount := 0xFFFFFFFF#32 }) 0x0C#8 = some 0#32 := by decide

/-- V-WD-2, its CYCLE: one past the bound; SEQ=0x74, WD_STAT=0x3. -/
theorem test_cycle_times_out :
    reads (exec (.cycle false false 0#16 0#16 0#16) { start [] with tickCount := 51 }) 0x00#8 = some 0x74#32 := by decide

/-- V-SR-1: SEQ=0x04, SDC_OPEN kept. -/
theorem test_seq_reset_keeps_sdc_open :
    reads (exec .seqReset { shutdown with seq := ⟨.faultShutdown, false, false, true, false, true, true⟩ }) 0x00#8
      = some 0x04#32 := by decide

/-- V-CTL-2 and V-CTL-3: ERR=0x91, and the first opcode is kept. -/
theorem test_illegal_word_captured :
    reads (step (start [illegalNine])) 0x11#8 = some 0x91#32 ∧
    reads (step { start [wordEdge .controlLoop 0x1#64] with err := ⟨true, 0x9#4⟩ }) 0x11#8 = some 0x91#32 := by decide

/-- R260, V-CTL-5: a TICK at a reset edge is lost; the fault is latched after reset. -/
theorem test_reset_edge_ignores_command :
    reads (step (start [resetAndTick])) 0x0C#8 = some 0#32 ∧
    reads (step (start [resetAndTick])) 0x06#8 = some 0x08#32 := by decide

/-- V-PIN-1. -/
theorem test_pins_after_reset :
    airPlus State.reset = false ∧ airMinus State.reset = true ∧ rtd State.reset = false := ⟨rfl, rfl, rfl⟩

/-- R103: a CYCLE line with an operand omitted, Program 4's first line; and a raw word. -/
theorem test_assembler_reads_lines :
    readLine ['C', 'Y', 'C', 'L', 'E', ' ', 's', 'd', 'c', '=', '1', ',', ' ', 'b', 'a', 't', 't', '=', '4', '0', '0']
      = some (.command (.cycle false true 400#16 0#16 0#16)) ∧
    readLine ['.', 'w', 'o', 'r', 'd', ' ', '0', 'x', '9', '0'] = some (.rawWord 0x90#64) := by decide

/-- R9: the timer does not issue CYCLE, and nobody who only reads issues anything. -/
theorem test_proper_edges :
    properEdge (commandEdge .tick) = true ∧ properEdge (wordEdge .timer 0x1004019000000000#64) = false ∧
    properEdge (wordEdge .diagnosticReader 0x9000000000000000#64) = false := by decide

/-! ### Witnesses: the hypotheses of each statement, met together -/

/-- The one hypothesis of: OnlyInvalidParametersAreRefused (valid), NopWritesTheStrobeOnly, DebUpdateLatchesRisingEdges,
DebResetClearsTheLatchOnly, PulseStaysLatchedAndHeldSwitchDoesNotRelatch, TorqueMapIsMonotoneBetweenItsEnds, CycleRunsTheSameEvaluation,
HeartbeatRestartsTheWindow, SendResultCountsFailures, TickAdvancesTheCounterOnly, FailureCounterCountsOverRuns, CountersCountOverRuns,
CycleIssuesTheTorqueRequest, CycleLeavesTheRestUnchanged, SeqResetReturnsToInit, ShutdownCutsTheTorqueInTheSameCycle,
OnlyTheNamedCommandsWrite (first part), PinsChangeOnlyWithTheSequencer (second part). -/
theorem witness_valid_parameters : State.reset.params.Valid := by decide

/-- OnlyInvalidParametersAreRefused (invalid). -/
theorem witness_OnlyInvalidParametersAreRefused :
    ¬ ({ start [] with params := { Params.reference with moveRange := 0 } } : State).params.Valid := by decide

/-- LegalWordIsTheEncodingOfItsCommand and LegalWordsAreTheTableRows, both parts. -/
theorem witness_LegalWordsAreTheTableRows :
    decode 0x2000000000000101#64 = .ok (.debUpdate .sdc true) ∧
    ∃ r ∈ opcodeTable, 0x2000000000000101#64 &&& r.mask = r.pattern :=
  ⟨rfl, _, .tail _ (.tail _ (.head _)), by decide⟩

/-- IllegalWordsAreExactlyTheReservedOnes: an illegal word at an edge, and a legal word. -/
theorem witness_IllegalWordsAreExactlyTheReservedOnes :
    decode 0x9000000000000000#64 = .error (.reservedOpcode 0x9#4) ∧ (start [illegalNine]).params.Valid ∧
    (start [illegalNine]).edges = [illegalNine] ∧ illegalNine.rst = false ∧
    illegalNine.command = some ⟨.controlLoop, 0x9000000000000000#64⟩ ∧ (start []).err.cmdErr = false ∧
    ∀ x, decode 0x0#64 ≠ .error x :=
  ⟨rfl, by decide, rfl, rfl, rfl, rfl, fun _ h => by cases h⟩

/-- StepRunsTheDecodedCommand; EdgeDoesOneOfFourInPriorityOrder (command). -/
theorem witness_StepRunsTheDecodedCommand :
    (start [commandEdge .tick]).params.Valid ∧ (start [commandEdge .tick]).edges = [commandEdge .tick] ∧
    (commandEdge .tick).rst = false ∧ (commandEdge .tick).command = some ⟨.timer, 0x7000000000000000#64⟩ ∧
    decode 0x7000000000000000#64 = .ok .tick := ⟨by decide, rfl, rfl, by decide, rfl⟩

/-- EdgeDoesOneOfFourInPriorityOrder (reset, illegal, idle); IllegalCommandIsDiscarded; ResetEdgeLoadsEveryResetValue. -/
theorem witness_EdgeDoesOneOfFourInPriorityOrder :
    (start [resetAndTick, illegalNine, Edge.idle]).params.Valid ∧
    (start [resetAndTick]).edges = [resetAndTick] ∧ resetAndTick.rst = true ∧
    illegalNine.rst = false ∧ illegalNine.command = some ⟨.controlLoop, 0x9000000000000000#64⟩ ∧
    decode 0x9000000000000000#64 = .error (.reservedOpcode 0x9#4) ∧
    Edge.idle.rst = false ∧ Edge.idle.command = none := ⟨by decide, rfl, rfl, rfl, rfl, rfl, rfl, rfl⟩

/-- SilentPortsIdle. -/
theorem witness_SilentPortsIdle : State.reset.params.Valid ∧ State.reset.edges = [] := ⟨by decide, rfl⟩

/-- ParametersNeverChange, StrobeMarksCycleEdges, SequencerMovesAsDrawn: a step that answers a next state. -/
theorem witness_step_answers : ∃ t, step (start [commandEdge .tick]) = .next t := ⟨_, rfl⟩

/-- UnmappedReadsReturnZero: the first unmapped address and the first index without a register. -/
theorem witness_UnmappedReadsReturnZero : 0x12 ≤ (0x12#8).toNat ∧ 2 ≤ 2 := by decide

/-- ReadSeesTheStateBeforeTheEdge: two edges with one RADDR. -/
theorem witness_ReadSeesTheStateBeforeTheEdge :
    (start [commandEdge .tick]).edges = commandEdge .tick :: [] ∧ illegalNine.raddr = (commandEdge .tick).raddr :=
  ⟨rfl, rfl⟩

/-- PinsChangeOnlyWithTheSequencer (first part). -/
theorem witness_PinsChangeOnlyWithTheSequencer :
    (∃ t, step (start [commandEdge .tick]) = .next t) ∧ (presented (start [commandEdge .tick])).rst = false ∧
    isCycle (presented (start [commandEdge .tick])) = false ∧
    executedBy (presented (start [commandEdge .tick])) ≠ some .seqReset := ⟨⟨_, rfl⟩, rfl, by decide, by decide⟩

/-- LatchIsClearedOnlyByItsResets: both latches set, each cleared by its DEB_RESET. -/
theorem witness_LatchIsClearedOnlyByItsResets :
    (∃ t, step { start [commandEdge (.debReset .drv)] with drv := ⟨true, true⟩ } = .next t ∧ t.drv.latch = false) ∧
    (∃ t, step { start [commandEdge (.debReset .sdc)] with sdc := ⟨true, true⟩ } = .next t ∧ t.sdc.latch = false) :=
  ⟨⟨_, rfl, rfl⟩, ⟨_, rfl, rfl⟩⟩

/-- AccSetEvaluatesTheMonitor: V-ACC-21's operands, each equation met. -/
theorem witness_AccSetEvaluatesTheMonitor :
    (monitor 0b011 false 0).params.Valid ∧
    500 = (if (500#16).toNat ≤ 1023 then (500#16).toNat else 0) ∧
    900 = (if (900#16).toNat ≤ 1023 then (900#16).toNat else 0) ∧
    700 = (500 + 900) / 2 ∧ 200 = max (max 500 700 - min 500 700) (max 900 700 - min 900 700) ∧
    20 = (if 700 < (monitor 0b011 false 0).params.midScale then 200 * 100 / (1023 - 700)
      else 200 * 100 / (monitor 0b011 false 0).params.moveRange) ∧
    20 = min 20 100 ∧
    true = (decide ((monitor 0b011 false 0).acc.hist.toNat % 4 = 3) && decide (20 > (monitor 0b011 false 0).params.devThr)
      && !(monitor 0b011 false 0).acc.fault) ∧
    false = (decide (500 < (monitor 0b011 false 0).params.vLow) && decide (900 < (monitor 0b011 false 0).params.vLow)) ∧
    true = ((monitor 0b011 false 0).acc.fault || true) := by decide

/-- FaultLatchesOnThirdExceedanceOnly: V-SRC-7's first three evaluations. -/
theorem witness_FaultLatchesOnThirdExceedanceOnly :
    ∃ s1 s2 s3, exec (.accSet 900#16 500#16) (monitor 0 false 0) = .next s1 ∧
      exec (.accSet 900#16 500#16) s1 = .next s2 ∧ exec (.accSet 900#16 500#16) s2 = .next s3 ∧ s2.acc.fault = false :=
  ⟨_, _, _, rfl, rfl, rfl, by decide⟩

/-- FaultClearsOnlyAfterTwoReleases: V-SRC-7's last two evaluations. -/
theorem witness_FaultClearsOnlyAfterTwoReleases :
    ∃ s1 s2, exec (.accSet 60#16 50#16) (monitor 0b111 true 0) = .next s1 ∧ exec (.accSet 60#16 50#16) s1 = .next s2 ∧
      s1.acc.fault = true ∧ s2.acc.fault = false :=
  ⟨_, _, rfl, rfl, by decide, by decide⟩

/-- PlausibleSamplesGiveTheMappedTorque: V-SRC-1. -/
theorem witness_PlausibleSamplesGiveTheMappedTorque :
    ∃ s1 s2 s3, exec (.accSet 545#16 540#16) (monitor 0 false 0) = .next s1 ∧
      exec (.accSet 545#16 540#16) s1 = .next s2 ∧ exec (.accSet 545#16 540#16) s2 = .next s3 ∧
      (monitor 0 false 0).acc.fault = false ∧ s1.acc.dev.toNat ≤ 10 ∧ s2.acc.dev.toNat ≤ 10 ∧ s3.acc.dev.toNat ≤ 10 :=
  ⟨_, _, _, rfl, rfl, rfl, rfl, by decide, by decide, by decide⟩

/-- MonitorStaysInRangeForAnyFormula: a formula at its bound, and an evaluation that latches. -/
theorem witness_MonitorStaysInRangeForAnyFormula :
    Params.reference.Valid ∧ (∀ a b avg : Nat, (fun _ _ _ => 100 : DevFormula) a b avg ≤ 100) ∧
    (monitor 0b011 false 0).acc.fault = false ∧
    (accEvalWith (fun _ _ _ => 100) Params.reference (monitor 0b011 false 0).acc 500#16 900#16).fault = true :=
  ⟨by decide, fun _ _ _ => Nat.le_refl _, rfl, by decide⟩

/-- CycleEvaluatesTheWatchdog: V-WD-12's elapsed time across the wrap. -/
theorem witness_CycleEvaluatesTheWatchdog :
    State.reset.params.Valid ∧ 0x20 = ((0x10#32).toNat + 2 ^ 32 - (0xFFFFFFF0#32).toNat) % 2 ^ 32 := by decide

/-- ShutdownRequestIsSticky, CauseRecordsAreKeptByEveryStep, FaultEventsStayObservable (LinkTimeout): V-WD-9's late heartbeat. -/
theorem witness_ShutdownRequestIsSticky :
    ∃ s t : State, RequestHasCause s.wd ∧ CauseOnlyInShutdown s.seq ∧ step s = .next t ∧ s.wd.req = true ∧
      recorded .linkTimeout s = true ∧ mayClear .linkTimeout (presented s) = false :=
  ⟨{ start [commandEdge (.wdHeartbeat 0x100#29)] with wd := { Watchdog.reset with req := true, timeout := true } },
    _, rfl, rfl, rfl, rfl, rfl, by decide⟩

/-- SilentInverterIsDetected, with HB_TIMEOUT = 0: one TICK, then a CYCLE. -/
theorem witness_SilentInverterIsDetected :
    ∃ (s : State) (es rest : List Edge) (c : Edge), s.params.Valid ∧ s.edges = es ++ c :: rest ∧
      s.tickCount = s.wd.lastHb ∧ (∀ e ∈ es, e.rst = false ∧ isHeartbeat s.params e = false) ∧ c.rst = false ∧
      isCycle c = true ∧ s.params.hbTimeout < ticksAfter 0 es ∧ ticksAfter 0 es < 2 ^ 32 :=
  ⟨State.resetWith { Params.reference with hbTimeout := 0 } [commandEdge .tick, commandEdge (.cycle false true 0 0 0)],
    [commandEdge .tick], [], commandEdge (.cycle false true 0 0 0), by decide, rfl, rfl, by decide, rfl, by decide,
    by decide, by decide⟩

/-- SequencerEvaluatesAsInPseudocode: an open loop in DRIVING. -/
theorem witness_SequencerEvaluatesAsInPseudocode :
    driving.params.Valid ∧ false = (driving.drv.latch || (false && !driving.drv.raw)) ∧
    false = (driving.sdc.latch || (false && !driving.sdc.raw)) ∧
    true = ((driving.seq.state == .armed || driving.seq.state == .driving) && !false) := ⟨by decide, rfl, rfl, rfl⟩

/-- NopWritesTheStrobeOnly (illegal): V-ENC-2. -/
theorem witness_NopWritesTheStrobeOnly : bitsOf 0x1#64 63 60 = 0 ∧ (0x1#64 : Word) ≠ 0 := by decide

/-- SdcLatchIsConsumedInInitOnly (second part): SEQ_RESET from FAULT_SHUTDOWN. -/
theorem witness_SdcLatchIsClearedOnTheWayBack :
    ∃ s t : State, step s = .next t ∧ s.seq.state ≠ .init ∧ t.seq.state = .init ∧ leavesShutdown (presented s) = true :=
  ⟨{ shutdown with edges := [commandEdge .seqReset] }, _, rfl, by decide, by decide, by decide⟩

/-- CycleFollowsTheTruthTable: V-SEQ-8's row, ARMED with a drive latch. -/
theorem witness_CycleFollowsTheTruthTable :
    armed.params.Valid ∧ FlagsFollowState armed.seq ∧
    false = (armed.wd.req || decide ((armed.tickCount.toNat + 2 ^ 32 - armed.wd.lastHb.toNat) % 2 ^ 32
      > armed.params.hbTimeout)) ∧
    true = (armed.drv.latch || (true && !armed.drv.raw)) ∧ true = (armed.sdc.latch || (true && !armed.sdc.raw)) ∧
    (⟨.driving, true, true, true, true, none⟩ : TableRow) = truthTable armed.seq.state false true true true :=
  ⟨by decide, ⟨rfl, rfl, rfl⟩, by decide, rfl, rfl, rfl⟩

/-- DriveLatchIsConsumedEveryCycle: a state for each clause. -/
theorem witness_DriveLatchIsConsumedEveryCycle :
    ((start []).seq.state ≠ .armed ∧ (start []).seq.state ≠ .driving) ∧
    ({ armed with drv := ⟨true, false⟩ } : State).drv.raw = true ∧ armed.drv.latch = false ∧ armed.seq.state ≠ .driving ∧
    ((inState .armed false false).seq.state = .armed ∧ (inState .armed false false).seq.airEn = false) ∧
    driving.seq.state = .driving := by decide

/-- SdcLatchIsConsumedInInitOnly: V-SEQ-4 (INIT, arms), V-SEQ-1 (INIT, into FAULT_SHUTDOWN), V-SEQ-7 (not INIT). -/
theorem witness_SdcLatchIsConsumedInInitOnly :
    (∃ t, exec (.cycle false true 0 0 0) (start []) = .next t ∧ t.seq.state ≠ .faultShutdown) ∧
    (∃ t, exec (.cycle false true 0 0 0) { start [] with tickCount := 51 } = .next t ∧ t.seq.state = .faultShutdown) ∧
    armed.seq.state ≠ .init ∧ true = ((start []).sdc.latch || (true && !(start []).sdc.raw)) :=
  ⟨⟨_, rfl, by decide⟩, ⟨_, rfl, by decide⟩, by decide, rfl⟩

/-- CauseBitsAreWrittenOnEntryOnly: V-SEQ-6 (entry), V-SEQ-12 (stay), V-SEQ-7 (neither). -/
theorem witness_CauseBitsAreWrittenOnEntryOnly :
    (∃ t, exec (.cycle false false 0 0 0) armed = .next t ∧ armed.seq.state ≠ .faultShutdown ∧
      t.seq.state = .faultShutdown) ∧
    shutdown.seq.state = .faultShutdown ∧
    (∃ t, exec (.cycle false true 0 0 0) armed = .next t ∧ t.seq.state ≠ .faultShutdown) :=
  ⟨⟨_, rfl, by decide, by decide⟩, rfl, ⟨_, rfl, by decide⟩⟩

/-- DriveStartsOnlyFromArmed: V-SEQ-8. -/
theorem witness_DriveStartsOnlyFromArmed :
    ∃ s t : State, FlagsFollowState s.seq ∧ step s = .next t ∧ s.seq.driveEn = false ∧ t.seq.driveEn = true :=
  ⟨{ armed with edges := [commandEdge (.cycle true true 0 0 0)] }, _, ⟨rfl, rfl, rfl⟩, rfl, rfl, by decide⟩

/-- FaultShutdownIsTerminal: a CYCLE with a closed loop and a drive press, as in V-SEQ-12. -/
theorem witness_FaultShutdownIsTerminal :
    ∃ s : State, s.params.Valid ∧ s.seq.state = .faultShutdown ∧ FlagsFollowState s.seq ∧
      (∀ e ∈ s.edges.take 1, leavesShutdown e = false) :=
  ⟨{ shutdown with edges := [commandEdge (.cycle true true 0 0 0)] }, by decide, rfl, ⟨rfl, rfl, rfl⟩, by decide⟩

/-- SendFailureActsAtTheNextCycle: the 4th failure, at the boundary SF_THR = 3. -/
theorem witness_SendFailureActsAtTheNextCycle :
    ∃ s : State, s.params.Valid ∧ s.params.sfThr ≤ s.wd.failCnt.toNat :=
  ⟨{ driving with wd := { Watchdog.reset with failCnt := 3 } }, by decide, by decide⟩

/-- SensorFaultOnlyZeroesTheTorque: no fault standing, and a fault standing. -/
theorem witness_SensorFaultOnlyZeroesTheTorque :
    (monitor 0 false 0).params.Valid ∧
    monitor 0b111 true 0 = { monitor 0 false 0 with acc := (monitor 0b111 true 0).acc } ∧
    (monitor 0 false 0).acc.fault = false ∧ (monitor 0b111 true 0).acc.fault = true := ⟨by decide, rfl, rfl, rfl⟩

/-- OnlyTheNamedCommandsWrite (third part): an edge with a reader. -/
theorem witness_OnlyTheNamedCommandsWrite_read :
    (start [{ commandEdge .tick with raddr := 0x11#8 }]).edges = { commandEdge .tick with raddr := 0x11#8 } :: [] := rfl

/-- OnlyTheNamedCommandsWrite (second part): an illegal word. -/
theorem witness_OnlyTheNamedCommandsWrite :
    (∃ t, step (start [illegalNine]) = .next t) ∧ (presented (start [illegalNine])).rst = false ∧
    executedBy (presented (start [illegalNine])) = none := ⟨⟨_, rfl⟩, rfl, by decide⟩

/-- InvariantsAreKeptByEveryStep: a driving state about to take a CYCLE. -/
theorem witness_InvariantsAreKeptByEveryStep :
    ∃ s t : State, Invariants s ∧ step s = .next t :=
  ⟨{ driving with edges := [commandEdge (.cycle false false 0 0 0)] }, _,
    ⟨fun _ => ⟨rfl, rfl⟩, ⟨rfl, rfl, rfl⟩, fun _ => rfl, by decide, by decide, by decide⟩, rfl⟩

/-- PseudoInstructionsExpand: `TICKS 1` and nothing after it. -/
theorem witness_PseudoInstructionsExpand :
    (start (lineEdges (.ticks 1))).params.Valid ∧
    (start (lineEdges (.ticks 1))).edges = lineEdges (.ticks 1) ++ [] := ⟨by decide, rfl⟩

end Sys2Proof.Tests
end

section
/-! PROOFS. 00_scope.md: the parameters of R11, and the order in which the agents' commands are taken (R10). -/

namespace Sys2Proof.Machine

/-! ### Edges that execute a known command -/

theorem edgeEffect_of_executedBy {e : Edge} {i : Instr} (h : executedBy e = some i) (s : State) :
    edgeEffect e s = effect i s := by
  obtain ⟨-, hn, -⟩ | ⟨-, j, hj, heff⟩ | ⟨-, hn, -⟩ | ⟨-, hn, -⟩ := edge_cases e s
  · simp [hn] at h
  · obtain rfl : j = i := Option.some.inj (hj.symm.trans h)
    exact heff
  · simp [hn] at h
  · simp [hn] at h

theorem step_of_executedBy {s : State} {i : Instr} (hv : s.params.Valid) (h : executedBy (presented s) = some i) :
    step s = .next (effect i (consumeEdge s)) :=
  (step_next _ _).2 ⟨hv, edgeEffect_of_executedBy h _⟩

theorem isHeartbeat_iff (p : Params) (e : Edge) :
    isHeartbeat p e = true ↔ executedBy e = some (.wdHeartbeat p.hbId) := beq_iff_eq

theorem isCycle_iff (e : Edge) :
    isCycle e = true ↔ ∃ drv sdc batt sb sa, executedBy e = some (.cycle drv sdc batt sb sa) := by
  unfold isCycle
  split
  next h => simp [h]
  next hne => exact ⟨nofun, fun ⟨_, _, _, _, _, h⟩ => absurd h (hne _ _ _ _ _)⟩

/-- The state between two edges that execute `i` and then `j` is the effect of `i` with the second edge still to come. -/
theorem run_two_commands {s : State} {d e : Edge} {i j : Instr} (hv : s.params.Valid)
    (hd : executedBy d = some i) (he : executedBy e = some j) :
    core.run 2 { s with edges := [d, e] } =
      .next (effect j (consumeEdge (effect i { s with edges := [e] }))) := by
  obtain ⟨hp, hes⟩ := effect_host_fields i { s with edges := [e] }
  have hfirst : step { s with edges := [d, e] } = .next (effect i { s with edges := [e] }) :=
    step_of_executedBy hv hd
  have hsecond := step_of_executedBy (s := effect i { s with edges := [e] }) (i := j) (by rw [hp]; exact hv)
    (by rw [presented_cons _ e [] hes]; exact he)
  rw [run_succ 1 _ _ hfirst, run_succ 0 _ _ hsecond]
  rfl

/-! ### A heartbeat and a CYCLE, in either order -/

section
variable {s : State} {h c : Edge} (hv : s.params.Valid) (hh : isHeartbeat s.params h = true) (hc : isCycle c = true)
include hv hh hc

/-- A CYCLE right after a matching heartbeat sees no elapsed tick, so it adds no request (R151, R154). -/
theorem heartbeat_then_cycle_req :
    ∃ t, core.run 2 { s with edges := [h, c] } = .next t ∧ t.wd.req = s.wd.req := by
  obtain ⟨drv, sdc, batt, sb, sa, hc⟩ := (isCycle_iff c).1 hc
  refine ⟨_, run_two_commands hv ((isHeartbeat_iff _ _).1 hh) hc, ?_⟩
  simp [effect_wd, effect_tickCount, effect_host_fields, wdEval_eq, heartbeat_eq, consumeEdge]

/-- A CYCLE past the bound raises the request, and the heartbeat after it does not take it back (R151, R154). -/
theorem cycle_then_heartbeat_req :
    ∃ u, core.run 2 { s with edges := [c, h] } = .next u ∧
      u.wd.req = (s.wd.req || decide (s.params.hbTimeout < (s.tickCount - s.wd.lastHb).toNat)) := by
  obtain ⟨drv, sdc, batt, sb, sa, hc⟩ := (isCycle_iff c).1 hc
  refine ⟨_, run_two_commands hv hc ((isHeartbeat_iff _ _).1 hh), ?_⟩
  simp [effect_wd, effect_host_fields, wdEval_eq, heartbeat_eq, consumeEdge]

end

/-! ### One tick past the bound, with the reference parameters -/

/-- Right after reset but for 51 ticks counted and no heartbeat among them: one more than `HB_TIMEOUT`. -/
def oneTickLate : State :=
  { State.resetWith Params.reference [] with tickCount := 51 }

/-- The link adapter's edge with a matching heartbeat. -/
def heartbeatEdge : Edge := commandEdge (.wdHeartbeat Params.reference.hbId)

/-- The control loop's edge with a CYCLE. -/
def cycleEdge : Edge := commandEdge (.cycle false true 0 0 0)

/-- The link adapter issues the heartbeat, the control loop the CYCLE, and nobody else anything. -/
def heartbeatAndCycleIssued (a : Agent) : List Word :=
  match a with
  | .linkAdapter => [encode (.wdHeartbeat Params.reference.hbId)]
  | .controlLoop => [encode (.cycle false true 0 0 0)]
  | .timer | .diagnosticReader | .resetSource => []

theorem heartbeat_cycle_interleaves : Interleaves [heartbeatEdge, cycleEdge] heartbeatAndCycleIssued := by
  intro a; cases a <;> rfl

theorem cycle_heartbeat_interleaves : Interleaves [cycleEdge, heartbeatEdge] heartbeatAndCycleIssued := by
  intro a; cases a <;> rfl

theorem oneTickLate_timedOut :
    oneTickLate.params.hbTimeout < (oneTickLate.tickCount - oneTickLate.wd.lastHb).toNat := by decide

/-! ### The statements -/

/-- Settles O14: every edge ends in `retire`, which looks at the parameter record alone. -/
theorem onlyInvalidParametersAreRefused : Obligations.OnlyInvalidParametersAreRefused := by
  intro s
  rw [step_eq_retire]
  exact ⟨retire_invalid _ _, fun hv => ⟨_, retire_valid _ _ hv⟩⟩

/-- Settles O13, from the frame of an edge. -/
theorem parametersNeverChange : Obligations.ParametersNeverChange := by
  intro s t h
  obtain ⟨-, rfl⟩ := (step_next s t).1 h
  exact (edgeEffect_host_fields (presented s) (consumeEdge s)).1

/-- Settles O54: one tick past the bound, the heartbeat first clears the elapsed time and the CYCLE first times out. -/
theorem orderOfAgentsMatters : Obligations.OrderOfAgentsMatters := by
  have hv : oneTickLate.params.Valid := by decide
  have hh : isHeartbeat oneTickLate.params heartbeatEdge = true := by decide
  have hc : isCycle cycleEdge = true := by decide
  obtain ⟨t, ht, htreq⟩ := heartbeat_then_cycle_req hv hh hc
  obtain ⟨u, hu, hureq⟩ := cycle_then_heartbeat_req hv hh hc
  exact ⟨oneTickLate, t, u, heartbeatEdge, cycleEdge, heartbeatAndCycleIssued, hv, rfl, hh, rfl, hc, by decide, by decide,
    heartbeat_cycle_interleaves, cycle_heartbeat_interleaves, ht, hu, htreq,
    by rw [hureq, decide_eq_true oneTickLate_timedOut, Bool.or_true]⟩

end Sys2Proof.Machine
end

section
/-! PROOFS. 10_state.md: who writes each register, the invariants that every step keeps, the counts over a run, and the reset image. -/

namespace Sys2Proof.Machine

/-! ### What an edge and a command leave -/

@[simp] theorem consumeEdge_drv (s : State) : (consumeEdge s).drv = s.drv := rfl
@[simp] theorem consumeEdge_sdc (s : State) : (consumeEdge s).sdc = s.sdc := rfl
@[simp] theorem consumeEdge_acc (s : State) : (consumeEdge s).acc = s.acc := rfl
@[simp] theorem consumeEdge_tickCount (s : State) : (consumeEdge s).tickCount = s.tickCount := rfl
@[simp] theorem consumeEdge_wd (s : State) : (consumeEdge s).wd = s.wd := rfl
@[simp] theorem consumeEdge_seq (s : State) : (consumeEdge s).seq = s.seq := rfl
@[simp] theorem consumeEdge_link (s : State) : (consumeEdge s).link = s.link := rfl

theorem clearStrobe_eq (s : State) : clearStrobe s = { s with link := { s.link with txValid := false } } := rfl

theorem exec_of_valid {s : State} (i : Instr) (hv : s.params.Valid) : exec i s = .next (effect i s) :=
  (exec_next i s _).2 ⟨hv, rfl⟩

/-- The inversion of `step`: a reset, a command, or an edge that executes none and writes the strobe and at most the error
capture. -/
theorem step_cases {s t : State} (h : step s = .next t) :
    ((presented s).rst = true ∧ executedBy (presented s) = none ∧ t = hardwareReset (consumeEdge s)) ∨
    ((presented s).rst = false ∧ ∃ i, executedBy (presented s) = some i ∧ t = effect i (consumeEdge s)) ∨
    ((presented s).rst = false ∧ executedBy (presented s) = none ∧
      ∃ err, t = clearStrobe (setErr (consumeEdge s) err)) := by
  obtain ⟨-, rfl⟩ := (step_next s t).1 h
  obtain h | h | ⟨hr, hn, he⟩ | ⟨hr, hn, op, he⟩ := edge_cases (presented s) (consumeEdge s)
  · exact .inl h
  · exact .inr (.inl h)
  · exact .inr (.inr ⟨hr, hn, s.err, he⟩)
  · exact .inr (.inr ⟨hr, hn, _, he⟩)

theorem effect_drv (i : Instr) (s : State) :
    (effect i s).drv = match i with
      | .cycle drv .. => ⟨drv, false⟩
      | .debUpdate sel raw => if sel = .drv then debSample s.drv raw else s.drv
      | .debReset sel => if sel = .drv then debUnlatch s.drv else s.drv
      | .seqReset => Debouncer.reset
      | _ => s.drv := by
  cases i with
  | cycle => exact controlCycle_drv ..
  | debUpdate | debReset => simp only [effect, clearStrobe_drv, debUpdate_eq, debReset_eq]
  | wdHeartbeat => simp only [effect, clearStrobe_drv, heartbeat_eq]; split <;> rfl
  | wdSendResult => simp only [effect, clearStrobe_drv, sendResult_eq]; split <;> rfl
  | _ => rfl

theorem effect_sdc (i : Instr) (s : State) :
    (effect i s).sdc = match i with
      | .cycle drv sdc _ sb sa => (seqEval (beforeSequencer drv sdc sb sa s) sdc).sdc
      | .debUpdate sel raw => if sel = .sdc then debSample s.sdc raw else s.sdc
      | .debReset sel => if sel = .sdc then debUnlatch s.sdc else s.sdc
      | .seqReset => Debouncer.reset
      | _ => s.sdc := by
  cases i with
  | debUpdate | debReset => simp only [effect, clearStrobe_sdc, debUpdate_eq, debReset_eq]
  | wdHeartbeat => simp only [effect, clearStrobe_sdc, heartbeat_eq]; split <;> rfl
  | wdSendResult => simp only [effect, clearStrobe_sdc, sendResult_eq]; split <;> rfl
  | _ => rfl

theorem step_seq_unchanged {s t : State} (h : step s = .next t) (hr : (presented s).rst = false)
    (hc : isCycle (presented s) = false) (hs : executedBy (presented s) ≠ some .seqReset) : t.seq = s.seq := by
  obtain ⟨hr', -, -⟩ | ⟨-, i, hi, rfl⟩ | ⟨-, -, _, rfl⟩ := step_cases h
  · simp [hr] at hr'
  · cases i with
    | cycle => simp [isCycle, hi] at hc
    | seqReset => exact absurd hi hs
    | _ => simp [effect_seq]
  · rfl

theorem debSample_eq (d : Debouncer) (raw : Bool) :
    debSample d raw = { raw := raw, latch := if raw = true ∧ d.raw = false then true else d.latch } := by
  obtain ⟨r, l⟩ := d
  cases raw <;> cases r <;> simp [debSample]

theorem controlCycle_sdc_raw (drv sdc : Bool) (batt sb sa : BitVec 16) (s : State) :
    (controlCycle drv sdc batt sb sa s).sdc.raw = sdc := by
  rw [controlCycle_eq, linkOut_eq, seqEval_eq]
  dsimp only
  split
  · rfl
  split <;> rfl

/-! ### The sequencer over a step -/

/-- What a reset, a sequencer evaluation and a SEQ_RESET keep of the sequencer, every step keeps: nothing else writes it. -/
theorem step_keeps_seq {P : Sequencer → Prop} (hreset : P Sequencer.reset)
    (hcycle : ∀ s c, P s.seq → P (seqEval s c).seq) (hseqReset : ∀ s, P s.seq → P (returnToInit s).seq)
    {s t : State} (hs : P s.seq) (h : step s = .next t) : P t.seq := by
  obtain ⟨-, -, rfl⟩ | ⟨-, i, -, rfl⟩ | ⟨-, -, _, rfl⟩ := step_cases h
  · exact hreset
  · cases i with
    | cycle drv sdc batt sb sa => exact hcycle (beforeSequencer drv sdc sb sa (consumeEdge s)) sdc hs
    | seqReset => exact hseqReset (consumeEdge s) hs
    | _ => simpa [effect_seq] using hs
  · exact hs

theorem flagsFollowState_seqEval (s : State) (c : Bool) : FlagsFollowState (seqEval s c).seq := by
  rw [seqEval_eq]
  exact ⟨rfl, rfl, rfl⟩

theorem driveGated_of_flagsFollowState {q : Sequencer} (h : FlagsFollowState q) : DriveGated q := by
  obtain ⟨hair, htq, hdrive⟩ := h
  intro hd
  have hst : q.state = .driving := by simpa [hdrive] using hd
  simp [hair, htq, hst, poweredState]

theorem step_keeps_flagsFollowState {s t : State} (hs : FlagsFollowState s.seq) (h : step s = .next t) :
    FlagsFollowState t.seq :=
  step_keeps_seq ⟨rfl, rfl, rfl⟩ (fun s c _ => flagsFollowState_seqEval s c) (fun _ _ => ⟨rfl, rfl, rfl⟩) hs h

theorem seqEval_state (s : State) (c : Bool) : (seqEval s c).seq.state = seqNext s c := by
  rw [seqEval_eq]

theorem seqNext_ne_of_no_shutdown (s : State) (c : Bool) (h : shutdownNow s.seq.state s.wd.req c = false) :
    seqNext s c ≠ .faultShutdown := by
  simp only [seqNext, h, Bool.false_eq_true, if_false]
  cases hst : s.seq.state with
  | faultShutdown => simp [hst, shutdownNow] at h
  | driving => simp
  | init | armed => dsimp only; split <;> simp

/-- The cause bits are written on entry, from what made the entry, and kept otherwise (R171, R175). -/
theorem causeOnlyInShutdown_seqEval (s : State) (c : Bool) (h : CauseOnlyInShutdown s.seq) :
    CauseOnlyInShutdown (seqEval s c).seq := by
  unfold CauseOnlyInShutdown at *
  rw [seqEval_eq]
  cases hsd : shutdownNow s.seq.state s.wd.req c with
  | false =>
    have hst : (s.seq.state == .faultShutdown) = false := by
      cases hs : s.seq.state == .faultShutdown <;> simp_all [shutdownNow]
    have hnext : (seqNext s c == .faultShutdown) = false := by
      simpa using seqNext_ne_of_no_shutdown s c hsd
    simp [hnext, h, hst]
  | true =>
    rw [seqNext_of_shutdown s c hsd]
    by_cases hst : s.seq.state = .faultShutdown
    · simpa [hst] using h
    · simpa [hst, shutdownNow] using hsd

theorem step_keeps_causeOnlyInShutdown {s t : State} (hs : CauseOnlyInShutdown s.seq) (h : step s = .next t) :
    CauseOnlyInShutdown t.seq :=
  step_keeps_seq (P := CauseOnlyInShutdown) rfl causeOnlyInShutdown_seqEval (fun _ _ => rfl) hs h

/-- A standing request shuts the sequencer down in the same CYCLE, with every output off (R171, R176). -/
theorem controlCycle_of_req (drv sdc : Bool) (batt sb sa : BitVec 16) {s : State} (h : s.wd.req = true) :
    let u := controlCycle drv sdc batt sb sa s
    u.seq.state = .faultShutdown ∧ airPlus u = false ∧ rtd u = false ∧ u.link.torque = 0 := by
  intro u
  have hstate : u.seq.state = .faultShutdown := by
    rw [controlCycle_seq, seqEval_state]
    exact seqNext_of_shutdown _ _ (by simp [shutdownNow, beforeSequencer, wdEval_eq, h])
  obtain ⟨hair, -, hdrive⟩ : FlagsFollowState u.seq := flagsFollowState_seqEval _ _
  rw [hstate] at hair hdrive
  refine ⟨hstate, hair, hdrive, ?_⟩
  rw [controlCycle_linkTorque, hdrive]
  exact linkTorque_zero _

/-! ### The monitor in range -/

/-- The fault forces the torque to 0, and the registers hold what is within their range (R60 (d) to (g)). -/
theorem accEval_inRange {p : Params} (x : Accelerator) (sa sb : BitVec 16) (hp : p.Valid) :
    MonitorInRange p (accEval p x sa sb) := by
  obtain ⟨-, -, -, hdev, htorque⟩ := accEvalWith_registers (deviation p) p x sa sb hp (deviation_le p)
  refine ⟨fun hf => ?_, ?_, ?_, ?_⟩
  · exact BitVec.eq_of_toNat_eq (by rw [accEval, htorque, ← accEval, hf]; rfl)
  · rw [accEval, htorque]
    split
    · exact Nat.zero_le _
    · exact torqueMap_le p _
  · refine le_of_eq_of_le (releaseCount_toNat ..) ?_
    split
    · omega
    split <;> omega
  · rw [accEval, hdev]
    exact deviation_le ..

theorem step_keeps_monitorInRange {s t : State} (hs : MonitorInRange s.params s.acc) (h : step s = .next t) :
    MonitorInRange t.params t.acc := by
  rw [parametersNeverChange s t h]
  obtain ⟨-, -, rfl⟩ | ⟨-, i, -, rfl⟩ | ⟨-, -, _, rfl⟩ := step_cases h
  · exact ⟨fun _ => rfl, Nat.zero_le _, Nat.zero_le _, Nat.zero_le _⟩
  · rw [effect_acc]
    cases i with
    | cycle | accSet => exact accEval_inRange _ _ _ ((step_next s _).1 h).1
    | _ => exact hs
  · exact hs

/-! ### The watchdog over a step -/

/-- The request and a cause are raised together, and cleared together (R152, R154, R178). -/
theorem step_keeps_requestHasCause {s t : State} (hs : RequestHasCause s.wd) (h : step s = .next t) :
    RequestHasCause t.wd := by
  obtain ⟨-, -, rfl⟩ | ⟨-, i, -, rfl⟩ | ⟨-, -, _, rfl⟩ := step_cases h
  · rfl
  · unfold RequestHasCause at *
    cases i with
    | cycle => simp [effect_wd, wdEval_eq, hs, Bool.or_right_comm]
    | wdHeartbeat => simp only [effect_wd, heartbeat_eq]; split <;> exact hs
    | wdSendResult ok => cases ok <;> simp [effect_wd, sendResult_eq, hs, Bool.or_assoc]
    | seqReset => simp [effect_wd]
    | _ => simpa [effect_wd] using hs
  · exact hs

theorem sfThr_lt_failCountUp {s : State} (hv : s.params.Valid) (h : s.params.sfThr ≤ s.wd.failCnt.toNat) :
    s.params.sfThr < failCountUp s.wd.failCnt := by
  obtain ⟨-, -, -, -, -, -, -, -, hthr⟩ := hv
  unfold failCountUp
  omega

/-! ### Counts over a run -/

/-- A register that every step counts up, in its own arithmetic, is after a run the count over the edges taken, begun at
the register's first value. -/
theorem run_counts {w : Nat} {f : State → BitVec w} {count : Nat → Edge → Nat} {wrap : Nat → BitVec w}
    (hidle : ∀ k, count k Edge.idle = k) (hwrap : ∀ a : BitVec w, wrap a.toNat = a)
    (hcount : ∀ k e, wrap (count (wrap k).toNat e) = wrap (count k e))
    (hstep : ∀ s t, step s = .next t → f t = wrap (count (f s).toNat (presented s)))
    (n : Nat) (s : State) (hv : s.params.Valid) :
    ∃ t, core.run n s = .next t ∧ f t = wrap ((s.edges.take n).foldl count (f s).toNat) := by
  obtain ⟨t, hrun, -, hf⟩ := run_folds f (fun a e => wrap (count a.toNat e)) (fun a => by rw [hidle, hwrap]) hstep n s hv
  refine ⟨t, hrun, ?_⟩
  rw [hf, ← List.foldl_hom wrap (g₂ := fun a e => wrap (count a.toNat e)) hcount, hwrap]

/-- WD_FAILCNT's arithmetic: it stops at 255 (R152). -/
def saturate8 (k : Nat) : BitVec 8 := BitVec.ofNat 8 (min k 255)

@[simp] theorem saturate8_toNat (k : Nat) : (saturate8 k).toNat = min k 255 :=
  (BitVec.toNat_ofNat _ _).trans (Nat.mod_eq_of_lt (by omega))

@[simp] theorem saturate8_self (a : BitVec 8) : saturate8 a.toNat = a :=
  BitVec.eq_of_toNat_eq (by rw [saturate8_toNat]; omega)

theorem failuresAfter_eq_foldl (n : Nat) (es : List Edge) :
    failuresAfter n es = es.foldl (fun k e => failuresAfter k [e]) n := rfl

/-- An edge begins the count of failures again, counts one more, or leaves the count. -/
theorem failuresAfter_singleton_cases (e : Edge) :
    (∀ k, failuresAfter k [e] = 0) ∨ (∀ k, failuresAfter k [e] = k + 1) ∨ (∀ k, failuresAfter k [e] = k) := by
  simp only [failuresAfter, List.foldl_cons, List.foldl_nil]
  split
  · exact .inl fun _ => rfl
  split
  · exact .inr (.inl fun _ => rfl)
  · exact .inl fun _ => rfl
  · exact .inl fun _ => rfl
  · exact .inr (.inr fun _ => rfl)

theorem saturate8_failuresAfter (k : Nat) (e : Edge) :
    saturate8 (failuresAfter (saturate8 k).toNat [e]) = saturate8 (failuresAfter k [e]) := by
  obtain h | h | h := failuresAfter_singleton_cases e
  · rw [h, h]
  · exact BitVec.eq_of_toNat_eq (by simp only [h, saturate8_toNat]; omega)
  · rw [h, h, saturate8_self]

/-- One edge counts a failure up to 255, or begins the count again (R152, R178, R250). -/
theorem step_failCnt {s t : State} (h : step s = .next t) :
    t.wd.failCnt = saturate8 (failuresAfter s.wd.failCnt.toNat [presented s]) := by
  obtain ⟨hr, -, rfl⟩ | ⟨hr, i, hi, rfl⟩ | ⟨hr, hn, _, rfl⟩ := step_cases h
  · simp [failuresAfter, hr, hardwareReset_eq, Watchdog.reset, saturate8]
  · cases i with
    | wdSendResult ok => cases ok <;> simp [failuresAfter, hr, hi, effect_wd, sendResult_eq, failCountUp, saturate8]
    | wdHeartbeat id => simp only [effect_wd, heartbeat_eq]; split <;> simp [failuresAfter, hr, hi]
    | seqReset => simp [failuresAfter, hr, hi, effect_wd, saturate8]
    | _ => simp [failuresAfter, hr, hi, effect_wd, wdEval_eq]
  · simp [failuresAfter, hr, hn]

/-- One edge's count of the edges that hit, begun again at a reset edge. -/
def countEdge (hit : Edge → Bool) (k : Nat) (e : Edge) : Nat :=
  if e.rst then 0 else if hit e then k + 1 else k

theorem ticksAfter_eq_foldl (n : Nat) (es : List Edge) : ticksAfter n es = es.foldl (countEdge isTick) n := rfl

theorem cyclesAfter_eq_foldl (n : Nat) (es : List Edge) : cyclesAfter n es = es.foldl (countEdge isCycle) n := rfl

theorem ofNat_countEdge (hit : Edge → Bool) (k : Nat) (e : Edge) :
    BitVec.ofNat 32 (countEdge hit (BitVec.ofNat 32 k).toNat e) = BitVec.ofNat 32 (countEdge hit k e) := by
  unfold countEdge
  cases e.rst with
  | true => rfl
  | false => cases hit e <;> exact BitVec.eq_of_toNat_eq (by simp)

/-- A 32-bit register that every step counts up at the edges that hit counts them over every run, modulo 2^32. -/
theorem run_counts_mod {f : State → BitVec 32} {hit : Edge → Bool} (hidle : hit Edge.idle = false)
    (hstep : ∀ s t, step s = .next t → f t = BitVec.ofNat 32 (countEdge hit (f s).toNat (presented s)))
    (n : Nat) (s : State) (hv : s.params.Valid) :
    ∃ t, core.run n s = .next t ∧ (f t).toNat = (s.edges.take n).foldl (countEdge hit) (f s).toNat % 2 ^ 32 := by
  obtain ⟨t, hrun, ht⟩ := run_counts (fun k => by rw [countEdge, hidle]; rfl) (fun a => by simp)
    (ofNat_countEdge hit) hstep n s hv
  exact ⟨t, hrun, by rw [ht, BitVec.toNat_ofNat]⟩

theorem step_tickCount {s t : State} (h : step s = .next t) :
    t.tickCount = BitVec.ofNat 32 (countEdge isTick s.tickCount.toNat (presented s)) := by
  obtain ⟨hr, -, rfl⟩ | ⟨hr, i, hi, rfl⟩ | ⟨hr, hn, _, rfl⟩ := step_cases h
  · simp [countEdge, hr, hardwareReset_eq]
  · cases i with
    | tick => simp [countEdge, isTick, hr, hi, effect_tickCount, BitVec.ofNat_add]
    | _ => simp [countEdge, isTick, hr, hi, effect_tickCount]
  · simp [countEdge, isTick, hr, hn]

theorem step_txCnt {s t : State} (h : step s = .next t) :
    t.link.txCnt = BitVec.ofNat 32 (countEdge isCycle s.link.txCnt.toNat (presented s)) := by
  obtain ⟨hr, -, rfl⟩ | ⟨hr, i, hi, rfl⟩ | ⟨hr, hn, _, rfl⟩ := step_cases h
  · simp [countEdge, hr, hardwareReset_eq, Link.reset]
  · cases i with
    | cycle => simp [countEdge, isCycle, hr, hi, effect_link, controlCycle_txCnt, BitVec.ofNat_add]
    | _ => simp [countEdge, isCycle, hr, hi, effect_link]
  · simp [countEdge, isCycle, hr, hn]

/-! ### One evaluation of the monitor, as numbers -/

theorem faultEdge_pushHistory (h : BitVec 3) (ex fault : Bool) :
    faultEdge (pushHistory h ex) fault = (decide (h.toNat % 4 = 3) && ex && !fault) := by
  revert h ex fault; decide

theorem faultAfterRelease_eq (fault1 : Bool) (rel' : BitVec 2) :
    faultAfterRelease fault1 rel' = if fault1 = true ∧ rel'.toNat = 2 then false else fault1 := by
  revert fault1 rel'; decide

/-- The history, the release counter and the fault of one evaluation, from whether the deviation exceeds the threshold
(R124 to R127). -/
theorem accEvalWith_flags (dev : DevFormula) (p : Params) (x : Accelerator) (sa sb : BitVec 16) {ex edge : Bool}
    (hex : ex = decide (p.devThr < dev (clampSample sa) (clampSample sb) (average (clampSample sa) (clampSample sb))))
    (hedge : edge = (decide (x.hist.toNat % 4 = 3) && ex && !x.fault)) :
    let y := accEvalWith dev p x sa sb
    y.hist.toNat = 2 * (x.hist.toNat % 4) + ex.toNat ∧
    y.rel.toNat = (if edge then 0
      else if pedalsReleased p (clampSample sa) (clampSample sb) then min (x.rel.toNat + 1) 2 else 0) ∧
    y.fault = (if (x.fault || edge) = true ∧ y.rel.toNat = 2 then false else x.fault || edge) := by
  rw [← faultEdge_pushHistory] at hedge
  subst hex hedge
  refine ⟨(pushHistory_toNat _ _).trans ?_, releaseCount_toNat _ _ _, faultAfterRelease_eq _ _⟩
  have hbit := Bool.toNat_lt (decide (p.devThr <
    dev (clampSample sa) (clampSample sb) (average (clampSample sa) (clampSample sb))))
  omega

/-! ### The statements -/

/-- Settles O56: the sequencer's part by `step_keeps_seq`, the monitor's by the ranges of one evaluation. -/
theorem invariantsAreKeptByEveryStep : Obligations.InvariantsAreKeptByEveryStep := by
  intro s t ⟨_, hflags, hmon⟩ h
  have hflags' := step_keeps_flagsFollowState hflags h
  exact ⟨driveGated_of_flagsFollowState hflags', hflags', step_keeps_monitorInRange hmon h⟩

/-- Settles O58: request and cause are raised together, and the cause bits are written on entry only. -/
theorem causeRecordsAreKeptByEveryStep : Obligations.CauseRecordsAreKeptByEveryStep :=
  ⟨fun _ _ => step_keeps_requestHasCause, fun _ _ => step_keeps_causeOnlyInShutdown⟩

/-- Settles O15: CYCLE alone ends in `linkOut`, every other edge in `clearStrobe` or a reset. -/
theorem strobeMarksCycleEdges : Obligations.StrobeMarksCycleEdges := by
  intro s t h
  obtain ⟨-, hn, rfl⟩ | ⟨-, i, hi, rfl⟩ | ⟨-, hn, _, rfl⟩ := step_cases h
  · simp [isCycle, hn, hardwareReset_eq, Link.reset]
  · cases i with
    | cycle => simp [isCycle, hi, effect_link, controlCycle_eq, linkOut_eq]
    | _ => simp [isCycle, hi, effect_link]
  · simp [isCycle, hn]

/-- Settles O19: the pins are sequencer registers, and a CYCLE's outputs follow the state it moves to. -/
theorem pinsChangeOnlyWithTheSequencer : Obligations.PinsChangeOnlyWithTheSequencer := by
  refine ⟨fun s t h hr hc hs => ?_, fun s drv sdc batt sb sa hv => ⟨_, exec_of_valid _ hv, ?_⟩⟩
  · simp [airPlus, airMinus, rtd, step_seq_unchanged h hr hc hs]
  · simp [airPlus, airMinus, rtd, effect_seq, seqEval_eq, poweredState]

/-- Settles O21, from the two writes of DEB_UPDATE: the sampled debouncer and the strobe. -/
theorem debUpdateLatchesRisingEdges : Obligations.DebUpdateLatchesRisingEdges := by
  intro raw s hv
  refine ⟨?_, ?_⟩ <;> simp [exec_of_valid _ hv, effect, clearStrobe_eq, debUpdate_eq, debSample_eq]

/-- Settles O22, from the two writes of DEB_RESET: the debouncer without its latch and the strobe. -/
theorem debResetClearsTheLatchOnly : Obligations.DebResetClearsTheLatchOnly := by
  intro s hv
  exact ⟨exec_of_valid _ hv, exec_of_valid _ hv⟩

/-- Settles O24: each command that leaves a set latch 0 is one of the list. -/
theorem latchIsClearedOnlyByItsResets : Obligations.LatchIsClearedOnlyByItsResets := by
  intro s t h hr
  obtain ⟨hr', -, -⟩ | ⟨-, i, hi, rfl⟩ | ⟨-, -, _, rfl⟩ := step_cases h
  · simp [hr] at hr'
  · refine ⟨fun hset hclear => ?_, fun hset hclear => ?_⟩
    · rw [effect_drv] at hclear
      cases i with
      | cycle | seqReset => simp [isCycle, hi]
      | debUpdate sel raw => cases sel <;> simp [debSample, hset] at hclear
      | debReset sel =>
        cases sel with
        | drv => exact .inl hi
        | sdc => simp [hset] at hclear
      | _ => simp [hset] at hclear
    · rw [effect_sdc] at hclear
      cases i with
      | seqReset => simp [hi]
      | cycle drv sdc batt sb sa =>
        refine .inr (.inr ⟨by simp [isCycle, hi], ?_⟩)
        by_contra hst
        simp [seqEval_eq, beforeSequencer, debSample, hset, hst] at hclear
      | debUpdate sel raw => cases sel <;> simp [debSample, hset] at hclear
      | debReset sel =>
        cases sel with
        | drv => simp [hset] at hclear
        | sdc => exact .inl hi
      | _ => simp [hset] at hclear
  · exact ⟨fun hset hclear => absurd (hclear.symm.trans hset) Bool.false_ne_true,
      fun hset hclear => absurd (hclear.symm.trans hset) Bool.false_ne_true⟩

/-- Settles O25: the operands' names are those of the monitor's functions, whose registers hold the numbers exactly. -/
theorem accSetEvaluatesTheMonitor : Obligations.AccSetEvaluatesTheMonitor := by
  intro s sb sa a b avg d q dev edge released fault1 hv ha hb havg hd hq hdev hedge hreleased hfault1
  obtain rfl : a = clampSample sa := ha
  obtain rfl : b = clampSample sb := hb
  obtain rfl : avg = average (clampSample sa) (clampSample sb) := havg
  obtain rfl : dev = deviation s.params (clampSample sa) (clampSample sb) (average (clampSample sa) (clampSample sb)) := by
    rw [hdev, hq, hd]; rfl
  subst hreleased hfault1
  obtain ⟨hsa, hsb, havg, hdev, htorque⟩ :=
    accEvalWith_registers (deviation s.params) s.params s.acc sa sb hv (deviation_le _)
  obtain ⟨hhist, hrel, hfault⟩ := accEvalWith_flags (deviation s.params) s.params s.acc sa sb rfl hedge
  refine ⟨_, exec_of_valid _ hv, rfl, hsa, hsb, hdev, havg, average_le _ _ (clampSample_le sa) (clampSample_le sb),
    min_le_average _ _, average_le_max _ _, hhist.trans ?_, hrel, hfault, htorque⟩
  rw [Bool.toNat, Bool.cond_decide]

/-- Settles O46, component by component. -/
theorem cycleLeavesTheRestUnchanged : Obligations.CycleLeavesTheRestUnchanged := by
  intro s drv sdc batt sb sa hv
  refine ⟨_, exec_of_valid _ hv, ?_⟩
  simp [effect, controlCycle_tickCount, controlCycle_wd, controlCycle_err, controlCycle_params, controlCycle_edges,
    controlCycle_drv, controlCycle_sdc_raw, wdEval_eq]

/-- Settles O32, on a match and on any other identifier. -/
theorem heartbeatRestartsTheWindow : Obligations.HeartbeatRestartsTheWindow := by
  intro id s hv
  rw [exec_of_valid _ hv, effect, clearStrobe_eq, heartbeat_eq]
  split <;> rfl

/-- Settles O33: the count fits its 8 bits, since it saturates. -/
theorem sendResultCountsFailures : Obligations.SendResultCountsFailures := by
  intro s hv
  refine ⟨exec_of_valid _ hv, _, exec_of_valid _ hv, rfl, saturate8_toNat _, ?_⟩
  simp [effect_wd, sendResult_eq, failCountUp, Bool.or_comm]

/-- Settles O34: 32 bits add modulo 2^32. -/
theorem tickAdvancesTheCounterOnly : Obligations.TickAdvancesTheCounterOnly := by
  intro s hv
  exact ⟨_, exec_of_valid _ hv, rfl, BitVec.toNat_add ..⟩

/-- Settles O37: counting up to 255 edge by edge is counting freely and capping at the end. -/
theorem failureCounterCountsOverRuns : Obligations.FailureCounterCountsOverRuns := by
  intro n s hv
  obtain ⟨t, hrun, ht⟩ := run_counts (f := (·.wd.failCnt)) (count := fun k e => failuresAfter k [e])
    (fun _ => rfl) saturate8_self saturate8_failuresAfter (fun _ _ => step_failCnt) n s hv
  exact ⟨t, hrun, by rw [ht, saturate8_toNat, failuresAfter_eq_foldl]⟩

/-- Settles O38: the run is the same for both counters. -/
theorem countersCountOverRuns : Obligations.CountersCountOverRuns := by
  intro n s hv
  obtain ⟨t, hrun, ht⟩ := run_counts_mod rfl (fun _ _ => step_tickCount) n s hv
  obtain ⟨u, hrun', hu⟩ := run_counts_mod rfl (fun _ _ => step_txCnt) n s hv
  obtain rfl : t = u := by injection hrun.symm.trans hrun'
  rw [← ticksAfter_eq_foldl] at ht
  rw [← cyclesAfter_eq_foldl] at hu
  exact ⟨t, hrun, ht, hu⟩

/-- Settles O53: the failure past the threshold leaves a standing request, and a CYCLE with one shuts down. -/
theorem sendFailureActsAtTheNextCycle : Obligations.SendFailureActsAtTheNextCycle := by
  intro s drv sdc batt sb sa hv hthr
  have hreq : (effect (.wdSendResult false) s).wd.req = true := by
    simp [effect_wd, sendResult_eq, sfThr_lt_failCountUp hv hthr]
  have hseq : (effect (.wdSendResult false) s).seq = s.seq := effect_seq _ s
  refine ⟨_, _, exec_of_valid _ hv, exec_of_valid _ (by rwa [(effect_host_fields _ s).1]), hreq, hseq, ?_, ?_, ?_,
    effect_link _ s, controlCycle_of_req _ _ _ _ _ hreq⟩
  · rw [airPlus, hseq, airPlus]
  · rw [airMinus, hseq, airMinus]
  · rw [rtd, hseq, rtd]

/-- Settles O55, register by register; RADDR enters no effect of an edge. -/
theorem onlyTheNamedCommandsWrite : Obligations.OnlyTheNamedCommandsWrite := by
  refine ⟨fun i s hv => ?_, fun s t h hr hn => ?_, fun s e rest a h => ?_⟩
  · refine ⟨_, exec_of_valid i hv, ?_, ?_, ?_, ?_, ?_, ?_, effect_err i s, effect_host_fields i s⟩
    · rw [effect_seq]; cases i <;> simp [mnemonicOf]
    · rw [effect_acc]; cases i <;> simp [mnemonicOf]
    · rw [effect_tickCount]; cases i <;> simp [mnemonicOf]
    · rw [effect_wd]; cases i <;> simp [mnemonicOf]
    · rw [effect_drv, effect_sdc]; cases i <;> simp [mnemonicOf]
    · rw [effect_link]; cases i <;> simp [mnemonicOf]
  · obtain ⟨hr', -, -⟩ | ⟨-, i, hi, -⟩ | ⟨-, -, _, rfl⟩ := step_cases h
    · simp [hr] at hr'
    · simp [hn] at hi
    · exact ⟨rfl, rfl, rfl, rfl, rfl, rfl, rfl⟩
  · rw [step_eq_retire, step_eq_retire, presented_cons s e rest h, consumeEdge_cons s e rest h]
    rfl

/-- Settles O12: neither the parameters nor the coming edges stand on the read port, so one image
is checked at all 256 addresses. -/
theorem resetImageAndPins : Obligations.ResetImageAndPins := by
  refine ⟨rfl, fun p es => ⟨fun a => ?_, rfl, rfl, rfl⟩⟩
  change readPort State.reset a = _
  revert a
  decide

end Sys2Proof.Machine
end

section
/-! PROOFS. 20_memory.md: the four kinds of edge, the register map of the read port, and the fault flags that stand on it. -/

namespace Sys2Proof.Machine

/-! ### The edge presented -/

/-- Under a valid record every edge completes, with its effect (R74). -/
theorem step_of_edges {s : State} {e : Edge} {rest : List Edge} (hv : s.params.Valid) (he : s.edges = e :: rest) :
    step s = .next (edgeEffect e { s with edges := rest }) := by
  rw [step_next, presented_cons s e rest he, consumeEdge_cons s e rest he]
  exact ⟨hv, rfl⟩

/-! ### The register map -/

/-! A row of the map packs its registers into `n` bits, which the port extends with zeros. -/

section
variable {n : Nat} {r : RData} {x : BitVec n} (h : r = x.setWidth 32)
include h

theorem toNat_of_eq_setWidth (hn : n ≤ 32 := by decide) : r.toNat = x.toNat := by
  rw [h, BitVec.toNat_setWidth_of_le hn]

theorem getLsbD_of_eq_setWidth {k : Nat} (hk : k < 32 := by decide) : r.getLsbD k = x.getLsbD k := by
  simp [h, hk]

end

theorem readPort_unmapped (s : State) {a : BitVec 8} (h : 0x12 ≤ a.toNat) : readPort s a = 0 := by
  unfold readPort
  split
  case h_19 => rfl
  all_goals omega

/-- Each event's flag stands on the read port at its listed place (R72, R224). -/
theorem readPort_recordedAt (e : FaultEvent) (s : State) :
    (readPort s (recordedAt e).1).getLsbD (recordedAt e).2 = recorded e s := by
  cases e <;>
  · refine (getLsbD_of_eq_setWidth rfl).trans ?_
    simp only [recordedAt, recorded, BitVec.getLsbD_append, BitVec.getLsbD_ofBool]
    rfl

/-! ### What may clear a recorded fault -/

theorem state_of_cause {q : Sequencer} (h : CauseOnlyInShutdown q) (hset : q.fcWd = true ∨ q.fcSdc = true) :
    q.state = .faultShutdown := by
  rw [← beq_iff_eq, ← h, Bool.or_eq_true]
  exact hset

/-- In FAULT_SHUTDOWN the cause bits are kept by every command but SEQ_RESET (R175). -/
theorem effect_keeps_shutdown_causes {i : Instr} (hi : i ≠ .seqReset) {s : State} (hst : s.seq.state = .faultShutdown) :
    (effect i s).seq.fcWd = s.seq.fcWd ∧ (effect i s).seq.fcSdc = s.seq.fcSdc := by
  rw [effect_seq]
  cases i with
  | cycle drv sdc batt sb sa => simp [seqEval_eq, beforeSequencer, hst]
  | seqReset => exact absurd rfl hi
  | _ => exact ⟨rfl, rfl⟩

/-- The causes of a request are kept by every command but SEQ_RESET (R47). -/
theorem effect_keeps_request_causes {i : Instr} (hi : i ≠ .seqReset) (s : State) :
    (s.wd.timeout = true → (effect i s).wd.timeout = true) ∧ (s.wd.sendFail = true → (effect i s).wd.sendFail = true) := by
  rw [effect_wd]
  cases i with
  | cycle => simp +contextual [wdEval_eq]
  | wdHeartbeat => simp only [heartbeat_eq]; split <;> exact ⟨id, id⟩
  | wdSendResult ok => cases ok <;> simp +contextual [sendResult_eq]
  | seqReset => exact absurd rfl hi
  | _ => exact ⟨id, id⟩

theorem rst_of_not_mayClear {e : FaultEvent} {x : Edge} (h : mayClear e x = false) : x.rst = false :=
  (Bool.or_eq_false_iff.1 h).1

/-- Every command keeps a recorded flag unless its edge may clear the event. -/
theorem effect_keeps_recorded {e : FaultEvent} {x : Edge} {i : Instr} {s : State} (hx : executedBy x = some i)
    (hcause : CauseOnlyInShutdown s.seq) (hset : recorded e s = true) (hkeep : mayClear e x = false) :
    recorded e (effect i s) = true := by
  obtain ⟨-, hkeep⟩ := Bool.or_eq_false_iff.1 hkeep
  rw [hx] at hkeep
  have hi : e ≠ .sensorFault → e ≠ .illegalCommand → i ≠ .seqReset := by
    rintro he he' rfl
    cases e <;> simp at he he' hkeep
  cases e with
  | sensorFault =>
    rw [recorded, effect_acc]
    cases i with
    | cycle | accSet => simp at hkeep
    | _ => exact hset
  | illegalCommand => rwa [recorded, effect_err]
  | linkTimeout => exact (effect_keeps_request_causes (hi nofun nofun) s).1 hset
  | linkSendFailure => exact (effect_keeps_request_causes (hi nofun nofun) s).2 hset
  | shutdownCircuitOpen =>
    exact (effect_keeps_shutdown_causes (hi nofun nofun) (state_of_cause hcause (.inr hset))).2.trans hset
  | shutdownRequestedTaken =>
    exact (effect_keeps_shutdown_causes (hi nofun nofun) (state_of_cause hcause (.inl hset))).1.trans hset

/-! ### The statements -/

/-- Settles O8: the step is the effect of the edge presented, and each of its four cases is one operation. -/
theorem edgeDoesOneOfFourInPriorityOrder : Obligations.EdgeDoesOneOfFourInPriorityOrder := by
  intro s e rest hv he
  rw [step_of_edges hv he]
  refine ⟨fun hr => ?reset, fun hr c hc => ⟨fun i hi => ⟨_, exec_of_valid i hv, ?command⟩, fun x hx => ?illegal⟩,
    fun hr hc => ?idle⟩
  case reset => simp [edgeEffect, hr, hardwareReset_eq]
  case command => simp [edgeEffect, hr, hc, hi]
  case illegal => simp [edgeEffect, hr, hc, hx, raiseIllegal_eq]
  case idle => simp [edgeEffect, hr, hc, clearStrobe_eq]

/-- Settles O16: the number of a concatenation is the sum of its parts at their positions. -/
theorem registerMapIsAsListed : Obligations.RegisterMapIsAsListed := by
  intro s
  have hseq := toNat_of_eq_setWidth (r := readPort s 0x00#8) rfl
  have hdeb := toNat_of_eq_setWidth (r := readPort s 0x01#8) rfl
  have hacc := toNat_of_eq_setWidth (r := readPort s 0x06#8) rfl
  have hwd := toNat_of_eq_setWidth (r := readPort s 0x08#8) rfl
  have hlink := toNat_of_eq_setWidth (r := readPort s 0x0D#8) rfl
  have herr := toNat_of_eq_setWidth (r := readPort s 0x11#8) rfl
  simp only [append_toNat, bit_toNat, BitVec.toNat_ofNat] at hseq hdeb hacc hwd hlink herr
  refine ⟨?_, by omega, toNat_of_eq_setWidth rfl, toNat_of_eq_setWidth rfl, toNat_of_eq_setWidth rfl,
    toNat_of_eq_setWidth rfl, by omega, toNat_of_eq_setWidth rfl, by omega, rfl, toNat_of_eq_setWidth rfl, rfl, rfl,
    by omega, toNat_of_eq_setWidth rfl, rfl, rfl, by omega⟩
  cases hst : s.seq.state <;> simp only [hst, seqStateBits, BitVec.toNat_ofNat] at hseq ⊢ <;> omega

/-- Settles O59: an edge without a command writes no flag but CMD_ERR, which it sets, and a command keeps every flag that it
may not clear. -/
theorem faultEventsStayObservable : Obligations.FaultEventsStayObservable := by
  refine ⟨fun e s t hcause h hset hkeep => ?_, readPort_recordedAt⟩
  obtain ⟨-, rfl⟩ := (step_next s t).1 h
  obtain ⟨hr, -, -⟩ | ⟨-, i, hi, heff⟩ | ⟨-, -, heff⟩ | ⟨-, -, op, heff⟩ := edge_cases (presented s) (consumeEdge s)
  · simp [rst_of_not_mayClear hkeep] at hr
  · rw [heff]
    exact effect_keeps_recorded hi hcause hset hkeep
  · rw [heff]
    cases e <;> exact hset
  · rw [heff]
    cases e with
    | illegalCommand => rfl
    | _ => exact hset

/-- Settles O7: both sides end in `retire`, with the effect of the decoded command. -/
theorem stepRunsTheDecodedCommand : Obligations.StepRunsTheDecodedCommand := by
  intro s e c rest i he hr hc hi
  rw [step_eq_retire, exec_eq_retire, presented_cons s e rest he, consumeEdge_cons s e rest he]
  simp [edgeEffect, hr, hc, hi]

/-- Settles O17: the map's last row answers every address past the listed ones. -/
theorem unmappedReadsReturnZero : Obligations.UnmappedReadsReturnZero := by
  refine fun s => ⟨fun a => readPort_unmapped s, rfl, rfl, fun k hk => ?_⟩
  obtain ⟨k, rfl⟩ := Nat.exists_eq_add_of_le' hk
  rfl

/-- Settles O18: of the coming edges RDATA takes RADDR alone. -/
theorem readSeesTheStateBeforeTheEdge : Obligations.ReadSeesTheStateBeforeTheEdge := by
  intro s e rest he
  have hr : rdata s = readPort s e.raddr := by rw [rdata, presented_cons s e rest he]
  exact ⟨hr, fun e' rest' ha => by rw [hr, ← ha]; rfl⟩

end Sys2Proof.Machine
end

section
/-! PROOFS. 30_encoding.md: the formats field by field, the words that are legal, and the pseudo-instructions. -/

namespace Sys2Proof.Machine

/-! ### The parts of a word, as numbers -/

theorem field_toNat_eq_bitsOf (w : Word) (lo n : Nat) : (field w lo (n + 1)).toNat = bitsOf w (lo + n) lo := by
  rw [field_toNat, bitsOf, Nat.add_sub_cancel_left]

theorem opcodeOf_toNat (w : Word) : (opcodeOf w).toNat = bitsOf w 63 60 :=
  field_toNat_eq_bitsOf w 60 3

theorem flagAt_toNat (w : Word) (k : Nat) : (flagAt w k).toNat = bitsOf w k k := by
  rw [flagAt_eq, bitsOf, Nat.sub_self, Bool.toNat, Bool.cond_decide]
  split <;> omega

section
variable {w : Word}

theorem field_eq_iff {lo n : Nat} {x : BitVec (n + 1)} :
    field w lo (n + 1) = x ↔ bitsOf w (lo + n) lo = x.toNat := by
  rw [← BitVec.toNat_inj, field_toNat_eq_bitsOf]

theorem flagAt_eq_iff {k : Nat} {b : Bool} : flagAt w k = b ↔ bitsOf w k k = b.toNat := by
  rw [← flagAt_toNat]
  cases b <;> simp

theorem ifReservedZero_eq_ok {z : Bool} {i j : Instr} : ifReservedZero w z i = .ok j ↔ z = true ∧ i = j := by
  cases z <;> simp [ifReservedZero]

theorem ifReservedZero_eq_error {z : Bool} {i : Instr} {x : DecodeError} :
    ifReservedZero w z i = .error x ↔ z = false ∧ .reservedBits (opcodeOf w) = x := by
  cases z <;> simp [ifReservedZero]

end

theorem ofBit_eq_iff {b : Bool} {sel : DebSel} : DebSel.ofBit b = sel ↔ b = sel.toBit := by
  cases b <;> cases sel <;> decide

/-! ### The words of a command -/

/-- The opcode, the zero reserved fields and the operands of a command, each where its format has it (R93 to R98). -/
def HasFields (w : Word) (i : Instr) : Prop :=
  match i with
  | .nop => bitsOf w 63 60 = 0 ∧ bitsOf w 59 0 = 0
  | .cycle drv sdc batt sb sa =>
    bitsOf w 63 60 = 1 ∧ bitsOf w 59 52 = 0 ∧ bitsOf w 51 51 = drv.toNat ∧ bitsOf w 50 50 = sdc.toNat ∧
    bitsOf w 49 48 = 0 ∧ bitsOf w 47 32 = batt.toNat ∧ bitsOf w 31 16 = sb.toNat ∧ bitsOf w 15 0 = sa.toNat
  | .debUpdate sel raw =>
    bitsOf w 63 60 = 2 ∧ bitsOf w 59 9 = 0 ∧ bitsOf w 8 8 = sel.toBit.toNat ∧ bitsOf w 7 1 = 0 ∧ bitsOf w 0 0 = raw.toNat
  | .debReset sel => bitsOf w 63 60 = 3 ∧ bitsOf w 59 9 = 0 ∧ bitsOf w 8 8 = sel.toBit.toNat ∧ bitsOf w 7 0 = 0
  | .accSet sb sa => bitsOf w 63 60 = 4 ∧ bitsOf w 59 32 = 0 ∧ bitsOf w 31 16 = sb.toNat ∧ bitsOf w 15 0 = sa.toNat
  | .wdHeartbeat id => bitsOf w 63 60 = 5 ∧ bitsOf w 59 29 = 0 ∧ bitsOf w 28 0 = id.toNat
  | .wdSendResult ok => bitsOf w 63 60 = 6 ∧ bitsOf w 59 1 = 0 ∧ bitsOf w 0 0 = ok.toNat
  | .tick => bitsOf w 63 60 = 7 ∧ bitsOf w 59 0 = 0
  | .seqReset => bitsOf w 63 60 = 8 ∧ bitsOf w 59 0 = 0

section
variable {w : Word} {i : Instr}

theorem hasFields_of_decode (h : decode w = .ok i) : HasFields w i := by
  unfold decode at h
  split at h
  case h_10 => cases h
  all_goals
    rename_i hop
    obtain ⟨hzero, rfl⟩ := ifReservedZero_eq_ok.1 h
    rw [opcodeOf_toNat] at hop
    simp only [Bool.and_eq_true, beq_iff_eq, field_eq_iff] at hzero
    simp [HasFields, hop, hzero, field_toNat_eq_bitsOf, flagAt_toNat, toBit_ofBit]

theorem decode_of_hasFields (h : HasFields w i) : decode w = .ok i := by
  have hop := opcodeOf_toNat w
  cases i <;>
  · obtain ⟨hw, hfields⟩ := h
    simp [decode, hop, hw, ifReservedZero_eq_ok, field_eq_iff, flagAt_eq_iff, ofBit_eq_iff, hfields]

theorem decode_eq_ok_iff : decode w = .ok i ↔ HasFields w i :=
  ⟨hasFields_of_decode, decode_of_hasFields⟩

/-- A word is the sum of its fields at their positions. -/
theorem encode_eq_iff : encode i = w ↔ HasFields w i := by
  rw [← BitVec.toNat_inj]
  have hw := w.isLt
  cases i with
  | cycle drv sdc batt sb sa =>
    have hdrv := drv.toNat_lt
    have hsdc := sdc.toNat_lt
    simp only [HasFields, bitsOf, encode_cycle_toNat]; omega
  | debUpdate sel raw =>
    have hsel := sel.toBit.toNat_lt
    have hraw := raw.toNat_lt
    simp only [HasFields, bitsOf, encode_debUpdate_toNat]; omega
  | debReset sel =>
    have hsel := sel.toBit.toNat_lt
    simp only [HasFields, bitsOf, encode_debReset_toNat]; omega
  | accSet => simp only [HasFields, bitsOf, encode_accSet_toNat]; omega
  | wdHeartbeat => simp only [HasFields, bitsOf, encode_wdHeartbeat_toNat]; omega
  | wdSendResult ok =>
    have hok := ok.toNat_lt
    simp only [HasFields, bitsOf, encode_wdSendResult_toNat]; omega
  | nop | tick | seqReset => simp only [HasFields, bitsOf, encode, append_toNat, BitVec.toNat_ofNat]; omega

end

/-- Settles O1: decoder and encoder agree with the same fields. -/
theorem decodeOfEncodeIsTheCommand : Obligations.DecodeOfEncodeIsTheCommand :=
  fun _ => decode_eq_ok_iff.2 (encode_eq_iff.1 rfl)

/-- Settles O2: decoder and encoder agree with the same fields. -/
theorem legalWordIsTheEncodingOfItsCommand : Obligations.LegalWordIsTheEncodingOfItsCommand :=
  fun _ _ h => encode_eq_iff.2 (decode_eq_ok_iff.1 h)

/-- Settles O3: the fields are those of `HasFields`, with SEL as the number of the instance. -/
theorem formatsPlaceEveryField : Obligations.FormatsPlaceEveryField :=
  fun _ => ⟨decode_eq_ok_iff, fun _ _ _ _ _ => decode_eq_ok_iff,
    fun sel _ => by cases sel <;> exact decode_eq_ok_iff, fun sel => by cases sel <;> exact decode_eq_ok_iff,
    fun _ _ => decode_eq_ok_iff, fun _ => decode_eq_ok_iff, fun _ => decode_eq_ok_iff, decode_eq_ok_iff, decode_eq_ok_iff⟩

/-- Settles O6: each word is the encoding of what it stands for. -/
theorem wordsFromTheFormatsDecode : Obligations.WordsFromTheFormatsDecode :=
  have h := decodeOfEncodeIsTheCommand
  ⟨h .nop, h (.cycle true true 400#16 545#16 540#16), h (.debUpdate .sdc true), h (.debReset .sdc),
    h (.accSet 900#16 500#16), h (.wdHeartbeat 0x1FFFFFFF#29), h (.wdSendResult true), h .tick, h .seqReset⟩

/-! ### Reserved bits -/

/-- Some bit below the opcode field that the format of the word's opcode does not name is 1 (R100 (b)). -/
def HasReservedBit (w : Word) : Prop :=
  ∃ k : Nat, k < 60 ∧ formatNames (bitsOf w 63 60) k = false ∧ bitsOf w k k = 1

theorem not_hasReservedBit_iff {w : Word} :
    ¬ HasReservedBit w ↔ ∀ k < 60, formatNames (opcodeOf w).toNat k = false → w.getLsbD k = false := by
  simp [HasReservedBit, opcodeOf_toNat, ← flagAt_toNat, flagAt]

theorem reserved_field_eq_zero {w : Word} {op lo n : Nat} (hop : (opcodeOf w).toNat = op) (hres : ¬ HasReservedBit w)
    (hfield : ∀ k < n, lo + k < 60 ∧ formatNames op (lo + k) = false) : (field w lo n == 0) = true := by
  subst hop
  refine beq_iff_eq.2 (BitVec.eq_of_getLsbD_eq fun k hk => ?_)
  obtain ⟨hlow, hname⟩ := hfield k hk
  simp [field, not_hasReservedBit_iff.1 hres _ hlow hname]

theorem exists_decode_of_no_reserved_bit {w : Word} (hop : (opcodeOf w).toNat < 9) (hres : ¬ HasReservedBit w) :
    ∃ i, decode w = .ok i := by
  unfold decode
  split
  case h_10 => simp only [imp_false] at *; omega
  all_goals
    rename_i hop
    refine ⟨_, ifReservedZero_eq_ok.2 ⟨?_, rfl⟩⟩
    simp (disch := decide) only [reserved_field_eq_zero hop hres, Bool.and_self]

theorem op_of_decode_error {w : Word} {x : DecodeError} (h : decode w = .error x) : x.op = opcodeOf w := by
  unfold decode at h
  split at h
  case h_10 => cases h; rfl
  all_goals
    obtain ⟨-, rfl⟩ := ifReservedZero_eq_error.1 h
    rfl

/-! ### The rows of the opcode table -/

/-- Below the opcode, a row's mask has the bits that the row's format does not name, and its pattern none (R105). -/
theorem row_low_bits : ∀ r ∈ opcodeTable, ∀ k < 60,
    r.mask.getLsbD k = !formatNames (opcodeOf r.pattern).toNat k ∧ r.pattern.getLsbD k = false := by decide

/-- A row's mask has the whole opcode, which is one of the nine and no other row's (R92). -/
theorem row_opcode : ∀ r ∈ opcodeTable, opcodeOf r.mask = BitVec.allOnes 4 ∧ (opcodeOf r.pattern).toNat < 9 ∧
    ∀ q ∈ opcodeTable, opcodeOf q.pattern = opcodeOf r.pattern → q = r := by decide

theorem getLsbD_opcodeOf (w : Word) {k : Nat} (h : k < 4) : (opcodeOf w).getLsbD k = w.getLsbD (60 + k) := by
  simp [opcodeOf, field, h]

theorem word_eq_iff {v w : Word} : v = w ↔ opcodeOf v = opcodeOf w ∧ ∀ k < 60, v.getLsbD k = w.getLsbD k := by
  refine ⟨fun h => ⟨h ▸ rfl, fun k _ => h ▸ rfl⟩, fun ⟨hop, hlow⟩ => BitVec.eq_of_getLsbD_eq fun k hk => ?_⟩
  obtain hk' | hk' := Nat.lt_or_ge k 60
  · exact hlow k hk'
  · obtain ⟨j, rfl⟩ := Nat.exists_eq_add_of_le hk'
    rw [← getLsbD_opcodeOf v (by omega), hop, getLsbD_opcodeOf w (by omega)]

theorem opcodeOf_and (v w : Word) : opcodeOf (v &&& w) = opcodeOf v &&& opcodeOf w :=
  BitVec.extractLsb'_and

section
variable {w : Word} {r : OpcodeRow} (hr : r ∈ opcodeTable)
include hr

/-- A row holds the words of its opcode without a reserved bit. -/
theorem row_holds_iff : w &&& r.mask = r.pattern ↔ opcodeOf w = opcodeOf r.pattern ∧ ¬ HasReservedBit w := by
  obtain ⟨hmask, -, -⟩ := row_opcode r hr
  rw [word_eq_iff, opcodeOf_and, hmask, BitVec.and_allOnes]
  refine and_congr_right fun hop => ?_
  rw [not_hasReservedBit_iff, hop]
  refine forall₂_congr fun k hk => ?_
  obtain ⟨hm, hp⟩ := row_low_bits r hr k hk
  rw [BitVec.getLsbD_and, hm, hp]
  cases formatNames (opcodeOf r.pattern).toNat k <;> simp

theorem eq_of_rows_hold (hw : w &&& r.mask = r.pattern) {q : OpcodeRow} (hq : q ∈ opcodeTable)
    (hwq : w &&& q.mask = q.pattern) : q = r := by
  obtain ⟨hop, -⟩ := (row_holds_iff hr).1 hw
  obtain ⟨hopq, -⟩ := (row_holds_iff hq).1 hwq
  obtain ⟨-, -, hunique⟩ := row_opcode r hr
  exact hunique q hq (hopq.symm.trans hop)

end

theorem exists_row_of_decode {w : Word} {i : Instr} (h : decode w = .ok i) :
    ∃ r ∈ opcodeTable, r.mnemonic = mnemonicOf i ∧ w &&& r.mask = r.pattern := by
  rw [← legalWordIsTheEncodingOfItsCommand w i h]
  cases i with
  | nop => exact Laws.TableMatch.nop
  | cycle => exact Laws.TableMatch.cycle ..
  | debUpdate => exact Laws.TableMatch.debUpdate ..
  | debReset => exact Laws.TableMatch.debReset ..
  | accSet => exact Laws.TableMatch.accSet ..
  | wdHeartbeat => exact Laws.TableMatch.wdHeartbeat ..
  | wdSendResult => exact Laws.TableMatch.wdSendResult ..
  | tick => exact Laws.TableMatch.tick
  | seqReset => exact Laws.TableMatch.seqReset

theorem exists_command_of_row {w : Word} {r : OpcodeRow} (hr : r ∈ opcodeTable) (hw : w &&& r.mask = r.pattern) :
    ∃ i, decode w = .ok i ∧ mnemonicOf i = r.mnemonic := by
  obtain ⟨hop, hres⟩ := (row_holds_iff hr).1 hw
  obtain ⟨-, hlt, -⟩ := row_opcode r hr
  obtain ⟨i, hi⟩ := exists_decode_of_no_reserved_bit (hop ▸ hlt) hres
  obtain ⟨q, hq, hname, hwq⟩ := exists_row_of_decode hi
  exact ⟨i, hi, by rw [← hname, eq_of_rows_hold hr hw hq hwq]⟩

/-- A word is illegal when its opcode is reserved or a reserved bit is 1, and only then (R100). -/
theorem exists_decode_error_iff (w : Word) :
    (∃ x, decode w = .error x) ↔ 9 ≤ bitsOf w 63 60 ∨ HasReservedBit w := by
  have hlegal : (∃ i, decode w = .ok i) ↔ (opcodeOf w).toNat < 9 ∧ ¬ HasReservedBit w := by
    refine ⟨fun ⟨i, hi⟩ => ?_, fun ⟨hop, hres⟩ => exists_decode_of_no_reserved_bit hop hres⟩
    obtain ⟨r, hr, -, hw⟩ := exists_row_of_decode hi
    obtain ⟨hop, hres⟩ := (row_holds_iff hr).1 hw
    obtain ⟨-, hlt, -⟩ := row_opcode r hr
    exact ⟨hop ▸ hlt, hres⟩
  have herror : (∃ x, decode w = .error x) ↔ ¬ ∃ i, decode w = .ok i := by
    cases decode w <;> simp
  rw [herror, hlegal, not_and_or, not_lt, not_not, opcodeOf_toNat]

/-- Settles O4: an encoding is a word of its command's row, and a row's word has no reserved bit. -/
theorem legalWordsAreTheTableRows : Obligations.LegalWordsAreTheTableRows := by
  refine ⟨fun w i h => ?_, fun w r => exists_command_of_row⟩
  obtain ⟨r, hr, hname, hw⟩ := exists_row_of_decode h
  exact ⟨r, hr, hw, hname⟩

/-- Settles O5: the outcome is that of an illegal edge, and every legal word has the row of its opcode. -/
theorem illegalWordsAreExactlyTheReservedOnes : Obligations.IllegalWordsAreExactlyTheReservedOnes := by
  intro w
  refine ⟨exists_decode_error_iff w, fun x hx => ⟨?_, fun s e a rest hv he hr hc => ?_⟩, fun hx => ?_⟩
  · rw [op_of_decode_error hx, opcodeOf_toNat]
  · obtain ⟨-, hcommand, -⟩ := edgeDoesOneOfFourInPriorityOrder s e rest hv he
    obtain ⟨-, hillegal⟩ := hcommand hr _ hc
    rw [hillegal x hx, op_of_decode_error hx, ← opcodeOf_toNat, BitVec.ofNat_toNat, BitVec.setWidth_eq]
  · cases hd : decode w with
    | error x => exact absurd hd (hx x)
    | ok i =>
      obtain ⟨r, hr, hname, hw⟩ := exists_row_of_decode hd
      exact ⟨r, hr, hw, fun _ => eq_of_rows_hold hr hw, i, rfl, hname.symm⟩

/-! ### The pseudo-instructions -/

theorem executedBy_commandEdge (i : Instr) : executedBy (commandEdge i) = some i := by
  simp [executedBy, commandEdge, wordEdge, decodeOfEncodeIsTheCommand i, Except.toOption]

/-- The ticks of a TICKS line write TICK_COUNT and the strobe only (R104, R153). -/
theorem run_ticks (n : Nat) (s : State) (rest : List Edge) (hv : s.params.Valid)
    (h : s.edges = lineEdges (.ticks n) ++ rest) :
    ∃ l, core.run n s = .next { s with tickCount := s.tickCount + BitVec.ofNat 32 n, link := l, edges := rest } := by
  induction n generalizing s with
  | zero =>
    obtain rfl : s.edges = rest := h
    exact ⟨s.link, by simp [Host.Core.run]⟩
  | succ n ih =>
    have he : s.edges = commandEdge .tick :: (lineEdges (.ticks n) ++ rest) := h
    have hstep := step_of_executedBy hv (by rw [presented_cons s _ _ he, executedBy_commandEdge])
    rw [consumeEdge_cons s _ _ he] at hstep
    obtain ⟨l, hrun⟩ := ih (effect .tick { s with edges := lineEdges (.ticks n) ++ rest }) hv rfl
    have hcount : s.tickCount + BitVec.ofNat 32 (n + 1) = s.tickCount + 1 + BitVec.ofNat 32 n := by
      rw [Nat.add_comm n, BitVec.ofNat_add, ← BitVec.add_assoc]; rfl
    rw [hcount]
    exact ⟨l, (run_succ n _ _ hstep).trans hrun⟩

/-- Settles O60: a line is a list of equal edges, and a run of TICK edges adds one for each. -/
theorem pseudoInstructionsExpand : Obligations.PseudoInstructionsExpand := by
  refine fun n => ⟨?_, rfl, List.length_replicate, fun e he => ?_, fun s rest hv h => ?_⟩
  · simp [lineEdges, assemble, List.flatMap_replicate]
  · rw [List.eq_of_mem_replicate he]
    exact ⟨rfl, rfl⟩
  · obtain ⟨l, hrun⟩ := run_ticks n s rest hv h
    exact ⟨_, hrun, rfl, rfl, by simp⟩

end Sys2Proof.Machine
end

section
/-! PROOFS. 40_debouncer.md: what sequences of debouncer commands leave in the latch (R113). -/

namespace Sys2Proof.Machine

/-! ### One debouncer, sample by sample -/

/-- The rise after the sample 0 sets the latch, and no sample clears it (R111). -/
theorem debSample_pulse_latch (d : Debouncer) :
    (debSample (debSample (debSample d false) true) false).latch = true := by
  simp [debSample]

/-- The recorded sample outlives the reset, so a switch that is still held does not rise again (R112). -/
theorem debSample_held_latch (d : Debouncer) : (debSample (debUnlatch (debSample d true)) true).latch = false := rfl

/-! ### The commands, on the instance they name -/

@[simp] theorem getDeb_clearStrobe (s : State) (i : DebSel) : getDeb (clearStrobe s) i = getDeb s i := by
  cases i <;> rfl

@[simp] theorem getDeb_effect_debUpdate (s : State) (i : DebSel) (raw : Bool) :
    getDeb (effect (.debUpdate i raw) s) i = debSample (getDeb s i) raw := by
  simp [effect, debUpdate]

@[simp] theorem getDeb_effect_debReset (s : State) (i : DebSel) :
    getDeb (effect (.debReset i) s) i = debUnlatch (getDeb s i) := by
  simp [effect, debReset]

/-! ### Commands in sequence -/

theorem effect_params_valid {s : State} (i : Instr) (hv : s.params.Valid) : (effect i s).params.Valid := by
  rwa [(effect_host_fields i s).1]

/-- No command breaks a valid record, so commands in sequence all complete. -/
theorem exists_exec_three {s : State} (hv : s.params.Valid) (i j k : Instr) {P : State → Prop}
    (h : P (effect k (effect j (effect i s)))) :
    ∃ s1 s2 s3, exec i s = .next s1 ∧ exec j s1 = .next s2 ∧ exec k s2 = .next s3 ∧ P s3 :=
  ⟨_, _, _, exec_of_valid i hv, exec_of_valid j (effect_params_valid i hv),
    exec_of_valid k (effect_params_valid j (effect_params_valid i hv)), h⟩

/-! ### The statement -/

/-- Settles O23: three commands leave in the instance what their three steps make of its debouncer. -/
theorem pulseStaysLatchedAndHeldSwitchDoesNotRelatch :
    Obligations.PulseStaysLatchedAndHeldSwitchDoesNotRelatch := by
  intro i s hv
  refine ⟨exists_exec_three hv _ _ _ ?pulse, exists_exec_three hv _ _ _ ?held⟩
  case pulse => simp only [getDeb_effect_debUpdate, debSample_pulse_latch]
  case held => simp only [getDeb_effect_debUpdate, getDeb_effect_debReset, debSample_held_latch]

end Sys2Proof.Machine
end

section
/-! PROOFS. 41_accelerator.md: the torque map, and what sequences of evaluations leave in the fault latch (R130). -/

namespace Sys2Proof.Machine

/-! ### The torque map -/

theorem torqueMap_of_le_vMinAct (p : Params) {m : Nat} (h : m ≤ p.vMinAct) : torqueMap p m = 0 :=
  if_pos h

theorem torqueMap_of_vMax_le {p : Params} (hp : p.vMinAct < p.vMax) {m : Nat} (h : p.vMax ≤ m) :
    torqueMap p m = p.tMax := by
  rw [torqueMap, if_neg (by omega), if_pos h]

theorem torqueMap_between {p : Params} {m : Nat} (hmin : p.vMinAct < m) (hmax : m < p.vMax) :
    torqueMap p m = (m - p.vMinAct) * p.tMax / (p.vMax - p.vMinAct) := by
  rw [torqueMap, if_neg (by omega), if_neg (by omega)]

/-- Below the linear part the map is 0 and above it `T_MAX`, so two voltages are left to compare within it (R128). -/
theorem torqueMap_monotone {p : Params} (hp : p.vMinAct < p.vMax) : Monotone (torqueMap p) := by
  intro m n hmn
  obtain hm | hm := le_or_gt m p.vMinAct
  · rw [torqueMap_of_le_vMinAct p hm]
    exact Nat.zero_le _
  obtain hn | hn := le_or_gt p.vMax n
  · rw [torqueMap_of_vMax_le hp hn]
    exact torqueMap_le p m
  · rw [torqueMap_between hm (by omega), torqueMap_between (by omega) hn]
    gcongr

/-! ### The history and the release counter -/

theorem exceeds_of_pushHistory_full {h : BitVec 3} {ex : Bool} : pushHistory h ex = 0b111#3 → ex = true := by
  revert h ex; decide

/-- Three pushes fill the history, so what it held before does not count (R124). -/
theorem pushHistory_three_full_iff (h : BitVec 3) (ex1 ex2 ex3 : Bool) :
    pushHistory (pushHistory (pushHistory h ex1) ex2) ex3 = 0b111#3 ↔ ex1 = true ∧ ex2 = true ∧ ex3 = true := by
  revert h ex1 ex2 ex3; decide

theorem releaseCount_toNat_le (rel : BitVec 2) (edge released : Bool) : (releaseCount rel edge released).toNat ≤ 2 := by
  revert rel edge released; decide

theorem releaseCount_ne_zero_iff {rel : BitVec 2} {edge released : Bool} :
    releaseCount rel edge released ≠ 0 ↔ edge = false ∧ released = true := by
  revert rel edge released; decide

theorem releaseCount_eq_two_iff {rel : BitVec 2} {edge released : Bool} :
    releaseCount rel edge released = 2#2 ↔ edge = false ∧ released = true ∧ rel ≠ 0 := by
  revert rel edge released; decide

/-! ### One evaluation, from the registers before to the registers after -/

section
variable {dev : DevFormula} {p : Params} {x y : Accelerator} {sa sb : BitVec 16} (hy : y = accEvalWith dev p x sa sb)
include hy

theorem rel_eq_releaseCount : y.rel =
    releaseCount x.rel (faultEdge y.hist x.fault) (pedalsReleased p (clampSample sa) (clampSample sb)) := by
  subst hy; rfl

theorem fault_eq_faultAfterRelease : y.fault = faultAfterRelease (x.fault || faultEdge y.hist x.fault) y.rel := by
  subst hy; rfl

/-- With no fault before, the fault follows the history: a fault edge zeroes the release counter, so the same evaluation
does not clear it (R125 to R127). -/
theorem fault_iff_hist_full (hx : x.fault = false) : y.fault = true ↔ y.hist = 0b111#3 := by
  have hedge : faultEdge y.hist x.fault = true ↔ y.hist = 0b111#3 := by simp [faultEdge, hx]
  rw [← hedge, fault_eq_faultAfterRelease hy, rel_eq_releaseCount hy, hx, Bool.false_or]
  cases faultEdge y.hist false <;> simp [faultAfterRelease, releaseCount]

/-- A fault is cleared only when the release counter reaches 2, so it was not 0 before (R126, R127). -/
theorem rel_ne_zero_of_fault_cleared (hx : x.fault = true) (hclear : y.fault = false) : x.rel ≠ 0 ∧ y.rel ≠ 0 := by
  have htwo : y.rel = 2#2 := by
    simpa [fault_eq_faultAfterRelease hy, faultAfterRelease, hx] using hclear
  obtain ⟨-, -, hxrel⟩ := releaseCount_eq_two_iff.1 ((rel_eq_releaseCount hy).symm.trans htwo)
  exact ⟨hxrel, by rw [htwo]; decide⟩

/-- An evaluation that leaves the release counter above 0 was no fault edge (R126). -/
theorem fault_before_of_rel_ne_zero (hrel : y.rel ≠ 0) (hfault : y.fault = true) : x.fault = true := by
  rw [rel_eq_releaseCount hy] at hrel
  obtain ⟨hedge, -⟩ := releaseCount_ne_zero_iff.1 hrel
  rw [fault_eq_faultAfterRelease hy, hedge, Bool.or_false, faultAfterRelease, Bool.and_eq_true] at hfault
  exact hfault.1

section
variable (hp : p.Valid) (hdev : ∀ a b avg, dev a b avg ≤ 100)
include hp hdev

theorem hist_eq_pushHistory : y.hist = pushHistory x.hist (decide (p.devThr < y.dev.toNat)) := by
  obtain ⟨-, -, -, hreg, -⟩ := accEvalWith_registers dev p x sa sb hp hdev
  subst hy
  rw [hreg]
  rfl

/-- An evaluation that leaves the release counter above 0 stored two samples below `V_LOW` (R126). -/
theorem samples_lt_vLow_of_rel_ne_zero (hrel : y.rel ≠ 0) : y.sa.toNat < p.vLow ∧ y.sb.toNat < p.vLow := by
  obtain ⟨hsa, hsb, -⟩ := accEvalWith_registers dev p x sa sb hp hdev
  rw [rel_eq_releaseCount hy] at hrel
  obtain ⟨-, hreleased⟩ := releaseCount_ne_zero_iff.1 hrel
  subst hy
  simpa [pedalsReleased, hsa, hsb] using hreleased

theorem torque_eq_torqueMap (hfault : y.fault = false) :
    y.torque.toNat = torqueMap p (min y.sa.toNat y.sb.toNat) := by
  obtain ⟨hsa, hsb, -, -, htorque⟩ := accEvalWith_registers dev p x sa sb hp hdev
  subst hy
  rw [htorque, hsa, hsb, hfault]
  rfl

/-- With no fault before, an evaluation without exceedance leaves none and the mapped torque (R125, R128). -/
theorem no_fault_of_plausible (hx : x.fault = false) (hthr : y.dev.toNat ≤ p.devThr) :
    y.fault = false ∧ y.torque.toNat = torqueMap p (min y.sa.toNat y.sb.toNat) := by
  have hfault : y.fault = false := by
    by_contra hf
    have hfull := (fault_iff_hist_full hy hx).1 (by simpa using hf)
    rw [hist_eq_pushHistory hy hp hdev] at hfull
    have hex := of_decide_eq_true (exceeds_of_pushHistory_full hfull)
    omega
  exact ⟨hfault, torque_eq_torqueMap hy hp hdev hfault⟩

/-- The fault forces the torque to 0, the map stays within `T_MAX`, and the other registers hold what is within their
range (R60 (d) to (g)). -/
theorem monitorInRange_of_eval : MonitorInRange p y := by
  obtain ⟨-, -, -, hreg, htorque⟩ := accEvalWith_registers dev p x sa sb hp hdev
  subst hy
  refine ⟨fun hf => BitVec.eq_of_toNat_eq ?_, ?_, releaseCount_toNat_le .., ?_⟩
  · rw [htorque, hf]; rfl
  · rw [htorque]
    split
    · exact Nat.zero_le _
    · exact torqueMap_le p _
  · rw [hreg]
    exact hdev ..

end

end

/-! ### ACC_SET as one evaluation -/

theorem accSet_next {s t : State} {sb sa : BitVec 16} (h : exec (.accSet sb sa) s = .next t) :
    s.params.Valid ∧ t.params = s.params ∧ t.acc = accEvalWith (deviation s.params) s.params s.acc sa sb := by
  obtain ⟨hv, rfl⟩ := (exec_next _ s t).1 h
  exact ⟨hv, rfl, rfl⟩

/-! ### The statements -/

/-- Settles O26: the ends and the bound are branches of the map, and floor division keeps the order between them. -/
theorem torqueMapIsMonotoneBetweenItsEnds : Obligations.TorqueMapIsMonotoneBetweenItsEnds := by
  intro p ⟨_, _, _, _, hlt, _⟩
  exact ⟨torqueMap_of_le_vMinAct p le_rfl, torqueMap_of_vMax_le hlt le_rfl, torqueMap_le p,
    fun _ _ hmn => torqueMap_monotone hlt hmn⟩

/-- Settles O27: step 2 of a CYCLE is ACC_SET's evaluation, and the other steps do not write the monitor. -/
theorem cycleRunsTheSameEvaluation : Obligations.CycleRunsTheSameEvaluation := by
  intro s drv sdc batt sb sa hv
  exact ⟨_, _, exec_of_valid _ hv, exec_of_valid _ hv, by rw [effect_acc, effect_acc]⟩

/-- Settles O28: the third history holds the three exceedances and nothing older. -/
theorem faultLatchesOnThirdExceedanceOnly : Obligations.FaultLatchesOnThirdExceedanceOnly := by
  intro s s1 s2 s3 a1 b1 a2 b2 a3 b3 h1 h2 h3 hfault
  obtain ⟨hv, hp1, e1⟩ := accSet_next h1
  obtain ⟨hv1, hp2, e2⟩ := accSet_next h2
  obtain ⟨hv2, -, e3⟩ := accSet_next h3
  rw [fault_iff_hist_full e3 hfault, hist_eq_pushHistory e3 hv2 (deviation_le _), hist_eq_pushHistory e2 hv1 (deviation_le _),
    hist_eq_pushHistory e1 hv (deviation_le _), pushHistory_three_full_iff, hp2, hp1]
  simp only [decide_eq_true_eq, gt_iff_lt]

/-- Settles O29: the clear needs the counter above 0 after both evaluations, and a fault edge zeroes it. -/
theorem faultClearsOnlyAfterTwoReleases : Obligations.FaultClearsOnlyAfterTwoReleases := by
  intro s s1 s2 a1 b1 a2 b2 h1 h2 hfault hclear
  obtain ⟨hv, hp1, e1⟩ := accSet_next h1
  obtain ⟨hv1, -, e2⟩ := accSet_next h2
  obtain ⟨hrel1, hrel2⟩ := rel_ne_zero_of_fault_cleared e2 hfault hclear
  obtain ⟨hsa1, hsb1⟩ := samples_lt_vLow_of_rel_ne_zero e1 hv (deviation_le _) hrel1
  obtain ⟨hsa2, hsb2⟩ := samples_lt_vLow_of_rel_ne_zero e2 hv1 (deviation_le _) hrel2
  rw [hp1] at hsa2 hsb2
  exact ⟨fault_before_of_rel_ne_zero e1 hrel1 hfault, hsa1, hsb1, hsa2, hsb2⟩

/-- Settles O30: each of the three evaluations starts without fault, as the one before leaves it. -/
theorem plausibleSamplesGiveTheMappedTorque : Obligations.PlausibleSamplesGiveTheMappedTorque := by
  intro s s1 s2 s3 a1 b1 a2 b2 a3 b3 h1 h2 h3 hfault hdev1 hdev2 hdev3
  obtain ⟨hv, hp1, e1⟩ := accSet_next h1
  obtain ⟨-, hp2, e2⟩ := accSet_next h2
  obtain ⟨-, -, e3⟩ := accSet_next h3
  rw [hp2] at e3
  rw [hp1] at e2 e3
  obtain ⟨hfault1, htorque1⟩ := no_fault_of_plausible e1 hv (deviation_le _) hfault hdev1
  obtain ⟨hfault2, htorque2⟩ := no_fault_of_plausible e2 hv (deviation_le _) hfault1 hdev2
  obtain ⟨hfault3, htorque3⟩ := no_fault_of_plausible e3 hv (deviation_le _) hfault2 hdev3
  exact ⟨hfault1, hfault2, hfault3, htorque1, htorque2, htorque3⟩

/-- Settles O31: neither the ranges nor the fault edge use more of the formula than its bound. -/
theorem monitorStaysInRangeForAnyFormula : Obligations.MonitorStaysInRangeForAnyFormula := by
  intro f p x sa sb hp hf
  exact ⟨monitorInRange_of_eval rfl hp hf, fun hx => (fault_iff_hist_full rfl hx).1⟩

end Sys2Proof.Machine
end

section
/-! PROOFS. 42_watchdog.md: the timeout evaluation in CYCLE (R154), the one-shot request (R155), and a silent inverter. -/

namespace Sys2Proof.Machine

/-! ### The timestamp and the elapsed ticks, edge by edge -/

/-- Only a matching heartbeat and a reset write the timestamp (R151, R250). -/
theorem step_lastHb_unchanged {s t : State} (h : step s = .next t) (hr : (presented s).rst = false)
    (hh : isHeartbeat s.params (presented s) = false) : t.wd.lastHb = s.wd.lastHb := by
  obtain ⟨hr', -, -⟩ | ⟨-, i, hi, rfl⟩ | ⟨-, -, _, rfl⟩ := step_cases h
  · simp [hr] at hr'
  · cases i with
    | wdHeartbeat id =>
      have hid : id ≠ s.params.hbId := by simpa [isHeartbeat, hi] using hh
      simp [effect_wd, heartbeat_eq, consumeEdge_params, hid]
    | wdSendResult ok => cases ok <;> simp [effect_wd, sendResult_eq]
    | _ => simp [effect_wd, wdEval_eq]
  · rfl

/-- The ticks since the timestamp count up at TICK, and at no other edge that keeps the timestamp (R153, R154). -/
theorem step_elapsed {s t : State} {k : Nat} (h : step s = .next t) (hr : (presented s).rst = false)
    (hh : isHeartbeat s.params (presented s) = false) (hk : s.tickCount - s.wd.lastHb = BitVec.ofNat 32 k) :
    t.tickCount - t.wd.lastHb = BitVec.ofNat 32 (countEdge isTick k (presented s)) := by
  rw [step_tickCount h, step_lastHb_unchanged h hr hh]
  cases ht : isTick (presented s) with
  | false => simpa [countEdge, hr, ht] using hk
  | true =>
    simp only [countEdge, hr, ht, Bool.false_eq_true, if_false, if_true]
    bv_omega

/-- A run over edges without a reset and a matching heartbeat goes through the state they lead to, where the ticks since
the timestamp are the TICKs among them. -/
theorem run_through_silence {s : State} {es rest : List Edge} {k : Nat} (hv : s.params.Valid)
    (he : s.edges = es ++ rest) (hsilent : ∀ e ∈ es, e.rst = false ∧ isHeartbeat s.params e = false)
    (hk : s.tickCount - s.wd.lastHb = BitVec.ofNat 32 k) :
    ∃ u : State, (∀ n, core.run (n + es.length) s = core.run n u) ∧ u.params = s.params ∧ u.edges = rest ∧
      u.tickCount - u.wd.lastHb = BitVec.ofNat 32 (ticksAfter k es) := by
  induction es generalizing s k with
  | nil => exact ⟨s, fun _ => rfl, rfl, he, hk⟩
  | cons e es ih =>
    obtain ⟨⟨hr, hh⟩, hsilent⟩ := List.forall_mem_cons.1 hsilent
    have hstep := step_of_edges hv he
    obtain ⟨hp, hes⟩ := edgeEffect_host_fields e { s with edges := es ++ rest }
    rw [← presented_cons s e _ he] at hr hh
    have hk' := step_elapsed hstep hr hh hk
    rw [presented_cons s e _ he] at hk'
    obtain ⟨u, hrun, hup, hue, huk⟩ := ih (by rwa [hp]) hes (by rwa [hp]) hk'
    exact ⟨u, fun n => (run_succ _ _ _ hstep).trans (hrun n), hup.trans hp, hue, huk⟩

/-! ### The evaluation in a CYCLE -/

/-- Within a tick, evaluating the watchdog again changes nothing. -/
theorem wdEval_wdEval (s : State) : wdEval (wdEval s) = wdEval s := by
  simp [wdEval_eq]

/-- Step 3 of a CYCLE may as well have run before it (R177). -/
theorem controlCycle_wdEval (drv sdc : Bool) (batt sb sa : BitVec 16) (s : State) :
    controlCycle drv sdc batt sb sa (wdEval s) = controlCycle drv sdc batt sb sa s := by
  rw [controlCycle_eq, controlCycle_eq, beforeSequencer, wdEval_wdEval]
  rfl

/-- Past the bound, the CYCLE that finds it raises the request and takes it (R154, R171, R176). -/
theorem controlCycle_of_timeout (drv sdc : Bool) (batt sb sa : BitVec 16) {s : State}
    (h : s.params.hbTimeout < (s.tickCount - s.wd.lastHb).toNat) :
    let t := controlCycle drv sdc batt sb sa s
    t.wd.req = true ∧ t.wd.timeout = true ∧ t.seq.state = .faultShutdown ∧ t.seq.airEn = false ∧
      t.seq.tqEn = false ∧ t.seq.driveEn = false ∧ t.link.torque = 0 := by
  intro t
  have hreq : (wdEval s).wd.req = true := by simp only [wdEval_eq, decide_eq_true h, Bool.or_true]
  have htimeout : (wdEval s).wd.timeout = true := by simp only [wdEval_eq, decide_eq_true h, Bool.or_true]
  have hwd : t.wd = (wdEval s).wd := controlCycle_wd ..
  obtain ⟨hstate, hair, hdrive, htorque⟩ := controlCycle_of_req drv sdc batt sb sa hreq
  rw [controlCycle_wdEval] at hstate hair hdrive htorque
  obtain ⟨-, htq, -⟩ : FlagsFollowState t.seq := flagsFollowState_seqEval _ _
  exact ⟨by rw [hwd, hreq], by rw [hwd, htimeout], hstate, hair, by rw [htq, hstate]; rfl, hdrive, htorque⟩

/-! ### The request over a command -/

/-- SEQ_RESET clears a standing request, and no other command writes it to 0 (R155, R178). -/
theorem effect_keeps_req_iff (i : Instr) {s : State} (h : s.wd.req = true) :
    (effect i s).wd.req = true ↔ i ≠ .seqReset := by
  rw [effect_wd]
  cases i with
  | cycle => simp [wdEval_eq, h]
  | wdHeartbeat => simp only [heartbeat_eq]; split <;> simp [h]
  | wdSendResult ok => cases ok <;> simp [sendResult_eq, h]
  | seqReset => simp
  | _ => simp [h]

/-! ### The statements -/

/-- Settles O35: 32 bits subtract modulo 2^32, and the cycle's other steps leave the watchdog. -/
theorem cycleEvaluatesTheWatchdog : Obligations.CycleEvaluatesTheWatchdog := by
  intro s drv sdc batt sb sa el hv hel
  have helapsed : (s.tickCount - s.wd.lastHb).toNat = el := by
    rw [hel, BitVec.toNat_sub]
    omega
  refine ⟨_, exec_of_valid _ hv, ?_⟩
  simp only [effect_wd, wdEval_eq]
  exact ⟨helapsed, by simp [helapsed, Bool.or_comm]⟩

/-- Settles O36: a reset clears the request, a command only if it is SEQ_RESET, and an edge without a command keeps it. -/
theorem shutdownRequestIsSticky : Obligations.ShutdownRequestIsSticky := by
  intro s t h hreq
  obtain ⟨hr, -, rfl⟩ | ⟨hr, i, hi, rfl⟩ | ⟨hr, hn, _, rfl⟩ := step_cases h
  · simp [hr, hardwareReset_eq, Watchdog.reset]
  · simp [hr, hi, effect_keeps_req_iff i (s := consumeEdge s) hreq]
  · simp [hr, hn, hreq]

/-- Settles O39: the elapsed ticks at the CYCLE are the TICKs of the silence, which fit 32 bits and exceed the bound. -/
theorem silentInverterIsDetected : Obligations.SilentInverterIsDetected := by
  intro s es rest c hv he hstart hsilent _ hc hlate hfit
  obtain ⟨u, hrun, hup, hue, huk⟩ := run_through_silence (k := 0) hv he hsilent (by simp [hstart])
  obtain ⟨drv, sdc, batt, sb, sa, hc⟩ := (isCycle_iff c).1 hc
  have hstep : step u = .next (controlCycle drv sdc batt sb sa (consumeEdge u)) :=
    step_of_executedBy (by rwa [hup]) (by rwa [presented_cons u c rest hue])
  refine ⟨_, ?_, controlCycle_of_timeout drv sdc batt sb sa (s := consumeEdge u) ?_⟩
  · rw [Nat.add_comm, hrun, run_succ 0 _ _ hstep]
    rfl
  · rw [consumeEdge_tickCount, consumeEdge_wd, consumeEdge_params, huk, BitVec.toNat_ofNat, Nat.mod_eq_of_lt hfit, hup]
    exact hlate

end Sys2Proof.Machine
end

section
/-! PROOFS. 43_sequencer.md: the sequencer's evaluation in a CYCLE (R171 to R175), the torque request (R176), SEQ_RESET
(R178), and what every step and run keeps (R179). -/

namespace Sys2Proof.Machine

/-! ### The next state, state by state -/

theorem seqNext_eq_faultShutdown_iff (s : State) (c : Bool) :
    seqNext s c = .faultShutdown ↔ shutdownNow s.seq.state s.wd.req c = true := by
  refine ⟨fun h => ?_, seqNext_of_shutdown s c⟩
  by_contra hno
  exact seqNext_ne_of_no_shutdown s c (Bool.eq_false_iff.2 hno) h

section
variable {s : State} {c : Bool} (hrun : seqNext s c ≠ .faultShutdown)
include hrun

theorem seqNext_from_init (hst : s.seq.state = .init) : seqNext s c = if s.sdc.latch && c then .armed else .init := by
  rw [Ne, seqNext_eq_faultShutdown_iff] at hrun
  rw [seqNext, if_neg hrun, hst]

theorem seqNext_from_armed (hst : s.seq.state = .armed) :
    seqNext s c = if s.drv.latch && s.seq.airEn && s.seq.tqEn then .driving else .armed := by
  rw [Ne, seqNext_eq_faultShutdown_iff] at hrun
  rw [seqNext, if_neg hrun, hst]

theorem seqNext_from_driving (hst : s.seq.state = .driving) : seqNext s c = .driving := by
  rw [Ne, seqNext_eq_faultShutdown_iff] at hrun
  rw [seqNext, if_neg hrun, hst]

end

theorem shutdownNow_iff (st : SeqState) (req c : Bool) :
    shutdownNow st req c = true ↔ st = .faultShutdown ∨ req = true ∨ sdcFault st c = true := by
  simp [shutdownNow, or_assoc]

theorem enables_off_in_shutdown {q : Sequencer} (h : FlagsFollowState q) (hst : q.state = .faultShutdown) :
    q.airEn = false ∧ q.tqEn = false ∧ q.driveEn = false := by
  obtain ⟨hair, htq, hdrive⟩ := h
  rw [hst] at hair htq hdrive
  exact ⟨hair, htq, hdrive⟩

/-! ### A CYCLE, as the sequencer sees it -/

theorem controlCycle_sdc (drv sdc : Bool) (batt sb sa : BitVec 16) (s : State) :
    (controlCycle drv sdc batt sb sa s).sdc = (seqEval (beforeSequencer drv sdc sb sa s) sdc).sdc := rfl

theorem exists_exec_cycle {drv sdc : Bool} {batt sb sa : BitVec 16} {s : State} (hv : s.params.Valid) {P : State → Prop}
    (h : ∀ t, t = controlCycle drv sdc batt sb sa s → P t) : ∃ t, exec (.cycle drv sdc batt sb sa) s = .next t ∧ P t :=
  ⟨_, exec_of_valid _ hv, h _ rfl⟩

section
variable {drv sdc : Bool} {batt sb sa : BitVec 16} {s t : State} (ht : t = controlCycle drv sdc batt sb sa s)
include ht

theorem cycle_state : t.seq.state = seqNext (beforeSequencer drv sdc sb sa s) sdc := by
  rw [ht, controlCycle_seq, seqEval_state]

theorem cycle_flagsFollowState : FlagsFollowState t.seq := by
  rw [ht, controlCycle_seq]
  exact flagsFollowState_seqEval _ _

theorem cycle_sdcOpen : t.seq.sdcOpen = !sdc := by
  rw [ht, controlCycle_seq, seqEval_eq]

/-- Step 4 reads the request that step 3 leaves (R177). -/
theorem cycle_shutdownNow : shutdownNow s.seq.state t.wd.req sdc = true ↔ t.seq.state = .faultShutdown := by
  rw [cycle_state ht, seqNext_eq_faultShutdown_iff, ht, controlCycle_wd]
  rfl

theorem cycle_faultShutdown_iff :
    t.seq.state = .faultShutdown ↔ s.seq.state = .faultShutdown ∨ t.wd.req = true ∨ sdcFault s.seq.state sdc = true := by
  rw [← cycle_shutdownNow ht, shutdownNow_iff]

/-- A CYCLE writes the cause bits when it enters FAULT_SHUTDOWN from another state (R175). -/
theorem cycle_causes_of_entry (hst : s.seq.state ≠ .faultShutdown) (hshut : t.seq.state = .faultShutdown) :
    t.seq.fcWd = t.wd.req ∧ t.seq.fcSdc = sdcFault s.seq.state sdc := by
  rw [← cycle_shutdownNow ht, ht, controlCycle_wd] at hshut
  rw [ht, controlCycle_seq, seqEval_eq, controlCycle_wd]
  simp [beforeSequencer, hshut, hst]

/-- Every other CYCLE keeps them (R175). -/
theorem cycle_causes_kept (h : s.seq.state = .faultShutdown ∨ t.seq.state ≠ .faultShutdown) :
    t.seq.fcWd = s.seq.fcWd ∧ t.seq.fcSdc = s.seq.fcSdc := by
  rw [ne_eq, ← cycle_shutdownNow ht, ht, controlCycle_wd] at h
  rw [ht, controlCycle_seq, seqEval_eq]
  rcases h with h | h <;> simp [beforeSequencer, h]

/-- The SDC latch is consumed in INIT out of FAULT_SHUTDOWN (R174). -/
theorem cycle_sdc_consumed (hst : s.seq.state = .init) (hrun : t.seq.state ≠ .faultShutdown) : t.sdc.latch = false := by
  rw [ne_eq, ← cycle_shutdownNow ht, ht, controlCycle_wd] at hrun
  rw [ht, controlCycle_sdc, seqEval_eq]
  simp [beforeSequencer, hst, hst ▸ hrun, debUnlatch]

/-- Every other CYCLE leaves it as step 1 does (R174). -/
theorem cycle_sdc_kept (h : s.seq.state ≠ .init ∨ t.seq.state = .faultShutdown) :
    t.sdc.latch = (s.sdc.latch || (sdc && !s.sdc.raw)) := by
  rw [← cycle_shutdownNow ht, ht, controlCycle_wd] at h
  rw [ht, controlCycle_sdc, seqEval_eq]
  rcases h with h | h <;> simp [beforeSequencer, h, debSample]

theorem cycle_from_init (hst : s.seq.state = .init) (hrun : t.seq.state ≠ .faultShutdown) :
    t.seq.state = if (s.sdc.latch || (sdc && !s.sdc.raw)) && sdc then .armed else .init := by
  rw [cycle_state ht] at hrun ⊢
  exact seqNext_from_init hrun hst

theorem cycle_from_armed (hst : s.seq.state = .armed) (hrun : t.seq.state ≠ .faultShutdown) :
    t.seq.state =
      if (s.drv.latch || (drv && !s.drv.raw)) && s.seq.airEn && s.seq.tqEn then .driving else .armed := by
  rw [cycle_state ht] at hrun ⊢
  exact seqNext_from_armed hrun hst

theorem cycle_from_driving (hst : s.seq.state = .driving) (hrun : t.seq.state ≠ .faultShutdown) :
    t.seq.state = .driving := by
  rw [cycle_state ht] at hrun ⊢
  exact seqNext_from_driving hrun hst

/-- A CYCLE ends in DRIVING from DRIVING, or from ARMED on the drive latch with both enables (R171). -/
theorem cycle_driving_cases (hdrive : t.seq.state = .driving) :
    s.seq.state = .driving ∨
    s.seq.state = .armed ∧ (s.drv.latch || (drv && !s.drv.raw)) = true ∧ s.seq.airEn = true ∧ s.seq.tqEn = true := by
  have hrun : t.seq.state ≠ .faultShutdown := by rw [hdrive]; exact nofun
  cases hst : s.seq.state with
  | init =>
    rw [cycle_from_init ht hst hrun] at hdrive
    split at hdrive <;> exact absurd hdrive nofun
  | armed =>
    rw [cycle_from_armed ht hst hrun] at hdrive
    exact .inr ⟨rfl, by simpa [and_assoc] using hdrive⟩
  | driving => exact .inl rfl
  | faultShutdown => exact absurd ((cycle_faultShutdown_iff ht).2 (.inl hst)) hrun

theorem cycle_driveEn_iff : t.seq.driveEn = true ↔ t.seq.state = .driving := by
  obtain ⟨-, -, hdrive⟩ := cycle_flagsFollowState ht
  rw [hdrive, beq_iff_eq]

theorem cycle_linkTorque_of_not_driveEn (h : t.seq.driveEn = false) : t.link.torque = 0 := by
  rw [ht] at h ⊢
  rw [controlCycle_linkTorque, h]
  exact linkTorque_zero _

theorem cycle_linkTorque_of_fault (hv : s.params.Valid) (h : t.acc.fault = true) : t.link.torque = 0 := by
  rw [ht, controlCycle_acc] at h
  obtain ⟨htorque, -⟩ := accEval_inRange s.acc sa sb hv
  rw [ht, controlCycle_linkTorque, controlCycle_acc, htorque h, ite_self]
  exact linkTorque_zero _

theorem cycle_move_allowed :
    allowedMove s.seq.state t.seq.state = true ∧ (t.seq.state = .init → s.seq.state = .init) := by
  by_cases hshut : t.seq.state = .faultShutdown
  · rw [hshut]
    cases s.seq.state <;> exact ⟨rfl, nofun⟩
  · cases hst : s.seq.state with
    | init => rw [cycle_from_init ht hst hshut]; split <;> exact ⟨rfl, fun _ => rfl⟩
    | armed => rw [cycle_from_armed ht hst hshut]; split <;> exact ⟨rfl, nofun⟩
    | driving => rw [cycle_from_driving ht hst hshut]; exact ⟨rfl, nofun⟩
    | faultShutdown => exact absurd ((cycle_faultShutdown_iff ht).2 (.inl hst)) hshut

end

/-! ### The four bits of LINK_FLAGS -/

theorem interlockFlags_toNat (q : Sequencer) :
    (interlockFlags q).toNat = q.airEn.toNat + 2 * q.tqEn.toNat + 4 * q.sdcOpen.toNat + 8 * q.driveEn.toNat := by
  unfold interlockFlags
  generalize q.airEn = air, q.tqEn = tq, q.sdcOpen = sdcOpen, q.driveEn = drive
  revert air tq sdcOpen drive
  decide

/-! ### A step, as the sequencer sees it -/

theorem leavesShutdown_eq_false_iff (e : Edge) :
    leavesShutdown e = false ↔ e.rst = false ∧ executedBy e ≠ some .seqReset := by
  simp [leavesShutdown]

/-- The inversion of `step` for the sequencer: back to INIT with the SDC latch cleared, a CYCLE, or nothing (R171, R178). -/
theorem step_seq_cases {s t : State} (h : step s = .next t) :
    (leavesShutdown (presented s) = true ∧ t.seq.state = .init ∧ t.sdc.latch = false) ∨
    (leavesShutdown (presented s) = false ∧ ∃ drv sdc batt sb sa,
      executedBy (presented s) = some (.cycle drv sdc batt sb sa) ∧ t = controlCycle drv sdc batt sb sa (consumeEdge s)) ∨
    (leavesShutdown (presented s) = false ∧ t.seq = s.seq) := by
  cases hl : leavesShutdown (presented s) with
  | true =>
    refine .inl ⟨rfl, ?_⟩
    obtain ⟨-, -, rfl⟩ | ⟨hr, i, hi, rfl⟩ | ⟨hr, hn, -⟩ := step_cases h
    · exact ⟨rfl, rfl⟩
    · obtain rfl : i = .seqReset := by simpa [leavesShutdown, hr, hi] using hl
      exact ⟨rfl, rfl⟩
    · simp [leavesShutdown, hr, hn] at hl
  | false =>
    obtain ⟨hr, hs⟩ := (leavesShutdown_eq_false_iff _).1 hl
    cases hc : isCycle (presented s) with
    | true =>
      obtain ⟨drv, sdc, batt, sb, sa, hi⟩ := (isCycle_iff _).1 hc
      obtain ⟨-, rfl⟩ := (step_next s t).1 h
      exact .inr (.inl ⟨rfl, drv, sdc, batt, sb, sa, hi, edgeEffect_of_executedBy hi _⟩)
    | false => exact .inr (.inr ⟨rfl, step_seq_unchanged h hr hc hs⟩)

theorem step_to_init {s t : State} (h : step s = .next t) (hst : s.seq.state ≠ .init) (hinit : t.seq.state = .init) :
    leavesShutdown (presented s) = true := by
  obtain ⟨hl, -⟩ | ⟨-, _, _, _, _, _, -, hcycle⟩ | ⟨-, hseq⟩ := step_seq_cases h
  · exact hl
  · exact absurd ((cycle_move_allowed hcycle).2 hinit) hst
  · exact absurd (hseq ▸ hinit) hst

/-! ### Runs over edges of one kind -/

/-- What every step over an edge of a kind keeps, a run over such edges keeps; an idle edge is of the kind, since the list of
edges may end before the run. -/
theorem run_keeps_over {P : State → Prop} {kind : Edge → Prop} (hidle : kind Edge.idle)
    (hstep : ∀ s t, P s → kind (presented s) → step s = .next t → P t) (n : Nat) (s : State) (hv : s.params.Valid)
    (hs : P s) (hes : ∀ e ∈ s.edges.take n, kind e) : ∃ t, core.run n s = .next t ∧ P t := by
  induction n generalizing s with
  | zero => exact ⟨s, rfl, hs⟩
  | succ n ih =>
    have hnext : step s = .next (edgeEffect (presented s) (consumeEdge s)) := (step_next _ _).2 ⟨hv, rfl⟩
    obtain ⟨hp, he⟩ := edgeEffect_host_fields (presented s) (consumeEdge s)
    have hsplit : kind (presented s) ∧ ∀ e ∈ s.edges.tail.take n, kind e := by
      cases hc : s.edges with
      | nil => simpa [presented, hc] using hidle
      | cons e rest => simpa [presented, hc] using hes
    rw [run_succ n s _ hnext]
    exact ih _ (by rwa [hp]) (hstep _ _ hs hsplit.1 hnext) (by rw [he]; exact hsplit.2)

/-- FAULT_SHUTDOWN with its outputs off and the cause bits of the entry (R179 (e)). -/
def ShutDownBy (wd sdc : Bool) (q : Sequencer) : Prop :=
  q.state = .faultShutdown ∧ FlagsFollowState q ∧ q.fcWd = wd ∧ q.fcSdc = sdc

theorem step_keeps_shutDownBy {wd sdc : Bool} (s t : State) (hs : ShutDownBy wd sdc s.seq)
    (hl : leavesShutdown (presented s) = false) (h : step s = .next t) : ShutDownBy wd sdc t.seq := by
  obtain ⟨hst, hflags, hwd, hsdc⟩ := hs
  obtain ⟨hl', -⟩ | ⟨-, _, _, _, _, _, -, hcycle⟩ | ⟨-, hseq⟩ := step_seq_cases h
  · exact absurd (hl'.symm.trans hl) nofun
  · obtain ⟨hwd', hsdc'⟩ := cycle_causes_kept hcycle (.inl hst)
    exact ⟨(cycle_faultShutdown_iff hcycle).2 (.inl hst), cycle_flagsFollowState hcycle, hwd'.trans hwd, hsdc'.trans hsdc⟩
  · rw [hseq]
    exact ⟨hst, hflags, hwd, hsdc⟩

/-! ### The truth table -/

/-- The rows of R172 move as R171 does where the enables follow the state. -/
theorem truthTable_state {s : State} (c : Bool) (hflags : FlagsFollowState s.seq) :
    (truthTable s.seq.state s.wd.req c s.sdc.latch s.drv.latch).state = seqNext s c := by
  obtain ⟨hair, htq, -⟩ := hflags
  rw [seqNext, hair, htq]
  generalize s.wd.req = req, s.sdc.latch = sdcL, s.drv.latch = drvL
  revert req c sdcL drvL
  cases s.seq.state <;> decide

section
variable (st : SeqState) (req c sdcL drvL : Bool)

theorem truthTable_enables :
    (truthTable st req c sdcL drvL).air = poweredState (truthTable st req c sdcL drvL).state ∧
    (truthTable st req c sdcL drvL).tq = poweredState (truthTable st req c sdcL drvL).state ∧
    (truthTable st req c sdcL drvL).drive = ((truthTable st req c sdcL drvL).state == .driving) := by
  revert req c sdcL drvL
  cases st <;> decide

theorem truthTable_causes :
    (truthTable st req c sdcL drvL).causes =
      if shutdownNow st req c && st != .faultShutdown then some (req, sdcFault st c) else none := by
  revert req c sdcL drvL
  cases st <;> decide

theorem truthTable_sdcLatch :
    (truthTable st req c sdcL drvL).sdcLatch = if shutdownNow st req c || st != .init then sdcL else false := by
  revert req c sdcL drvL
  cases st <;> decide

end

/-- The request that step 3 of a CYCLE leaves, in natural numbers (R154). -/
theorem wdEval_req (s : State) : (wdEval s).wd.req =
    (s.wd.req || decide ((s.tickCount.toNat + 2 ^ 32 - s.wd.lastHb.toNat) % 2 ^ 32 > s.params.hbTimeout)) := by
  have hel : (s.tickCount - s.wd.lastHb).toNat = (s.tickCount.toNat + 2 ^ 32 - s.wd.lastHb.toNat) % 2 ^ 32 := by
    rw [BitVec.toNat_sub]
    omega
  rw [← hel]
  rfl

/-- One evaluation is the row of R172 that the state, the request, the sample and the latches select. -/
theorem seqEval_truthTable {s : State} {c : Bool} {row : TableRow} (hflags : FlagsFollowState s.seq)
    (hrow : row = truthTable s.seq.state s.wd.req c s.sdc.latch s.drv.latch) :
    (seqEval s c).seq = ⟨row.state, row.air, row.tq, !c, row.drive,
      row.causes.elim s.seq.fcWd Prod.fst, row.causes.elim s.seq.fcSdc Prod.snd⟩ ∧
    (seqEval s c).sdc.latch = row.sdcLatch := by
  obtain ⟨hair, htq, hdrive⟩ := truthTable_enables s.seq.state s.wd.req c s.sdc.latch s.drv.latch
  rw [hrow, hair, htq, hdrive, truthTable_state c hflags, truthTable_causes, truthTable_sdcLatch, seqEval_eq]
  constructor
  · cases shutdownNow s.seq.state s.wd.req c && s.seq.state != .faultShutdown <;> rfl
  · cases shutdownNow s.seq.state s.wd.req c <;> cases s.seq.state <;> rfl

/-! ### The statements -/

/-- Settles O40: a CYCLE that ends in FAULT_SHUTDOWN has one of the three causes; any other moves by the state before. -/
theorem sequencerEvaluatesAsInPseudocode : Obligations.SequencerEvaluatesAsInPseudocode := by
  rintro s drv sdc batt sb sa _ _ sdcFlt hv rfl rfl hflt
  obtain rfl : sdcFlt = sdcFault s.seq.state sdc := hflt
  refine exists_exec_cycle hv fun t ht => ⟨?_, ?_⟩
  · split
    next hcause =>
      have hshut := (cycle_faultShutdown_iff ht).2 hcause
      refine ⟨hshut, cycle_sdc_kept ht (.inr hshut), ?_⟩
      split
      next hst => exact cycle_causes_kept ht (.inl hst)
      next hst => exact cycle_causes_of_entry ht hst hshut
    next hno =>
      have hrun := mt (cycle_faultShutdown_iff ht).1 hno
      obtain ⟨hwd, hsdc⟩ := cycle_causes_kept ht (.inr hrun)
      refine ⟨hwd, hsdc, ?_⟩
      cases hst : s.seq.state with
      | init => exact ⟨cycle_sdc_consumed ht hst hrun, by simp [cycle_from_init ht hst hrun]⟩
      | armed => exact ⟨cycle_sdc_kept ht (by simp [hst]), by simp [cycle_from_armed ht hst hrun, and_assoc]⟩
      | driving => exact ⟨cycle_sdc_kept ht (by simp [hst]), cycle_from_driving ht hst hrun⟩
      | faultShutdown => exact absurd (.inl hst) hno
  · obtain ⟨hair, htq, -⟩ := cycle_flagsFollowState ht
    refine ⟨by rw [ht, controlCycle_drv], ?_, ?_, cycle_driveEn_iff ht, cycle_sdcOpen ht⟩
    · simp [hair, poweredState]
    · simp [htq, poweredState]

/-- Settles O41: step 4 starts from the latches of step 1 and the request of step 3, and is a row of the table. -/
theorem cycleFollowsTheTruthTable : Obligations.CycleFollowsTheTruthTable := by
  rintro s drv sdc batt sb sa req _ _ row hv hflags hreq rfl rfl hrow
  refine exists_exec_cycle hv fun t ht => ?_
  obtain rfl : req = (wdEval s).wd.req := hreq.trans (wdEval_req s).symm
  obtain ⟨hseq, hlatch⟩ := seqEval_truthTable (s := beforeSequencer drv sdc sb sa s) (c := sdc) hflags hrow
  have hsdc : t.sdc = ⟨sdc, row.sdcLatch⟩ := by
    have hraw : t.sdc.raw = sdc := by rw [ht, controlCycle_sdc_raw]
    have hsdcL : t.sdc.latch = row.sdcLatch := by rw [ht, controlCycle_sdc, hlatch]
    rw [← hraw, ← hsdcL]
  refine ⟨?_, ?_, ?_, ?_, ?_, ?_, ?_, hsdc, ht ▸ controlCycle_drv ..⟩ <;> rw [ht, controlCycle_seq, hseq]
  · cases row.causes <;> rfl
  · cases row.causes <;> rfl

/-- Settles O42: DRIVING is entered from ARMED only, on a latch and both enables. -/
theorem driveLatchIsConsumedEveryCycle : Obligations.DriveLatchIsConsumedEveryCycle := by
  intro s drv sdc batt sb sa hv
  refine exists_exec_cycle hv fun t ht => ⟨by rw [ht, controlCycle_drv], ?_⟩
  have hoff (h : t.seq.state ≠ .driving) : t.seq.driveEn = false := by
    rwa [← Bool.not_eq_true, cycle_driveEn_iff ht]
  refine ⟨fun ha hd => hoff fun hdrive => ?_, fun hraw hl hd => hoff fun hdrive => ?_,
    fun ha hen => hoff fun hdrive => ?_, fun hd => ?_⟩
  · obtain hst | ⟨hst, -⟩ := cycle_driving_cases ht hdrive
    · exact hd hst
    · exact ha hst
  · obtain hst | ⟨-, hlatch, -⟩ := cycle_driving_cases ht hdrive
    · exact hd hst
    · simp [hraw, hl] at hlatch
  · obtain hst | ⟨-, -, hair, htq⟩ := cycle_driving_cases ht hdrive
    · simp [ha] at hst
    · simp [hair, htq] at hen
  · by_contra hne
    obtain ⟨hne, hrun⟩ := not_or.1 hne
    exact hne (cycle_from_driving ht hd hrun)

/-- Settles O43: a CYCLE consumes the latch in INIT alone, and only SEQ_RESET and reset lead back there. -/
theorem sdcLatchIsConsumedInInitOnly : Obligations.SdcLatchIsConsumedInInitOnly := by
  refine ⟨?_, fun s t h => ⟨step_to_init h, fun hl => ?_⟩⟩
  · rintro s drv sdc batt sb sa _ hv rfl
    refine exists_exec_cycle hv fun t ht => ?_
    refine ⟨fun hst hrun => ⟨cycle_sdc_consumed ht hst hrun, ?_⟩, fun _ hshut => cycle_sdc_kept ht (.inr hshut),
      fun hst => ⟨cycle_sdc_kept ht (.inl hst), mt (cycle_move_allowed ht).2 hst⟩⟩
    simp [cycle_from_init ht hst hrun]
  · obtain ⟨-, -, hlatch⟩ | ⟨hl', -⟩ | ⟨hl', -⟩ := step_seq_cases h
    · exact hlatch
    · simp [hl] at hl'
    · simp [hl] at hl'

/-- Settles O44: the cause bits are written on entry and kept by every other CYCLE. -/
theorem causeBitsAreWrittenOnEntryOnly : Obligations.CauseBitsAreWrittenOnEntryOnly := by
  intro s drv sdc batt sb sa hv
  refine exists_exec_cycle hv fun t ht => ⟨fun hst hshut => ?_, fun hst => ?_, fun hrun => cycle_causes_kept ht (.inr hrun)⟩
  · obtain ⟨hwd, hsdc⟩ := cycle_causes_of_entry ht hst hshut
    exact ⟨hwd, hsdc, enables_off_in_shutdown (cycle_flagsFollowState ht) hshut⟩
  · obtain ⟨hwd, hsdc⟩ := cycle_causes_kept ht (.inl hst)
    exact ⟨hwd, hsdc, (cycle_faultShutdown_iff ht).2 (.inl hst)⟩

/-- Settles O45: the link registers of `linkOut`, read as numbers. -/
theorem cycleIssuesTheTorqueRequest : Obligations.CycleIssuesTheTorqueRequest := by
  intro s drv sdc batt sb sa hv
  refine exists_exec_cycle hv fun t ht => ⟨?_, ?_, ?_, ?_, ?_⟩
  · rw [← interlockFlags_toNat, ht, controlCycle_eq, linkOut_eq]
  · rw [ht, controlCycle_eq, linkOut_eq]
  · rw [ht, controlCycle_linkTorque, linkTorque_toInt, ← ht]
    split <;> rfl
  · rw [ht, controlCycle_txCnt]
    exact BitVec.toNat_add ..
  · rw [ht, controlCycle_eq, linkOut_eq]

/-- Settles O48: a step that raises DRIVE_EN is a CYCLE into DRIVING from another state. -/
theorem driveStartsOnlyFromArmed : Obligations.DriveStartsOnlyFromArmed := by
  intro s t hflags h hoff hon
  obtain ⟨-, -, hdrive⟩ := step_keeps_flagsFollowState hflags h
  obtain ⟨-, hinit, -⟩ | ⟨-, drv, sdc, batt, sb, sa, hi, ht⟩ | ⟨-, hseq⟩ := step_seq_cases h
  · simp [hdrive, hinit] at hon
  · have hdriving := (cycle_driveEn_iff ht).1 hon
    obtain hst | ⟨hst, hlatch, hair, htq⟩ := cycle_driving_cases ht hdriving
    · obtain ⟨-, -, hdrive'⟩ := hflags
      rw [consumeEdge_seq] at hst
      simp [hdrive', hst] at hoff
    · rw [consumeEdge_seq] at hst
      have hno := mt (cycle_faultShutdown_iff ht).2 (by simp [hdriving])
      obtain ⟨hreq, rfl⟩ : t.wd.req = false ∧ sdc = true := by simpa [hst, sdcFault] using hno
      exact ⟨drv, batt, sb, sa, hi, hst, hair, htq, by simpa using hlatch, hreq⟩
  · simp [hseq, hoff] at hon

/-- Settles O49: either cause leads to FAULT_SHUTDOWN, where the enables are off; the torque is gated by DRIVE_EN and the fault. -/
theorem shutdownCutsTheTorqueInTheSameCycle : Obligations.ShutdownCutsTheTorqueInTheSameCycle := by
  intro s drv sdc batt sb sa hv
  refine exists_exec_cycle hv fun t ht => ⟨fun hcause => ?_, fun htorque => ⟨?_, ?_⟩⟩
  · have hshut : t.seq.state = .faultShutdown := by
      refine (cycle_faultShutdown_iff ht).2 (.inr (hcause.imp_right fun ⟨hst, hopen⟩ => ?_))
      simpa [sdcFault, hopen] using hst
    obtain ⟨hair, htq, hdrive⟩ := enables_off_in_shutdown (cycle_flagsFollowState ht) hshut
    exact ⟨hair, htq, hdrive, cycle_linkTorque_of_not_driveEn ht hdrive⟩
  · exact Bool.ne_false_iff.1 (mt (cycle_linkTorque_of_not_driveEn ht) htorque)
  · exact Bool.eq_false_iff.2 (mt (cycle_linkTorque_of_fault ht hv) htorque)

/-- Settles O50: a run over edges that do not leave FAULT_SHUTDOWN keeps it, with its causes. -/
theorem faultShutdownIsTerminal : Obligations.FaultShutdownIsTerminal := by
  intro n s hv hst hflags hes
  obtain ⟨t, hrun, hst', hflags', hwd, hsdc⟩ :=
    run_keeps_over (P := fun u => ShutDownBy s.seq.fcWd s.seq.fcSdc u.seq) (kind := (leavesShutdown · = false)) rfl
      step_keeps_shutDownBy n s hv ⟨hst, hflags, rfl, rfl⟩ hes
  obtain ⟨hair, -, hdrive⟩ := enables_off_in_shutdown hflags' hst'
  exact ⟨t, hrun, hst', hair, hdrive, hwd, hsdc⟩

/-- Settles O51: a step goes back to INIT, makes the move of a CYCLE, or leaves the sequencer. -/
theorem sequencerMovesAsDrawn : Obligations.SequencerMovesAsDrawn := by
  intro s t h
  refine ⟨?_, fun hinit hst => step_to_init h hst hinit, fun hne => ?_⟩
  · obtain ⟨-, hinit, -⟩ | ⟨-, _, _, _, _, _, -, ht⟩ | ⟨-, hseq⟩ := step_seq_cases h
    · rw [hinit]
      cases s.seq.state <;> rfl
    · exact (cycle_move_allowed ht).1
    · rw [hseq]
      cases s.seq.state <;> rfl
  · obtain ⟨hl, -⟩ | ⟨-, drv, sdc, batt, sb, sa, hi, -⟩ | ⟨-, hseq⟩ := step_seq_cases h
    · exact .inl hl
    · exact .inr ((isCycle_iff _).2 ⟨drv, sdc, batt, sb, sa, hi⟩)
    · exact absurd (congrArg _ hseq) hne

/-- Settles O47, from the writes of SEQ_RESET and the strobe. -/
theorem seqResetReturnsToInit : Obligations.SeqResetReturnsToInit := by
  intro s hv
  rw [exec_of_valid _ hv, effect, clearStrobe_eq, returnToInit_eq]
  rfl

end Sys2Proof.Machine
end

section
/-! PROOFS. 44_control.md: NOP (R210), idle edges (R211) and illegal commands (R212). -/

namespace Sys2Proof.Machine

/-! ### The silent port -/

/-- With no edge listed, the idle edge is presented and none is consumed. -/
theorem step_of_no_edges {s : State} (hv : s.params.Valid) (he : s.edges = []) :
    step s = .next (edgeEffect Edge.idle s) := by
  have hidle : presented s = Edge.idle := by rw [presented, he, List.headD_nil]
  have hsame : consumeEdge s = s := by rw [consumeEdge, he, List.tail_nil, ← he]; rfl
  rw [step_next, hidle, hsame]
  exact ⟨hv, rfl⟩

/-! ### The words of opcode 0 -/

section
variable {w : Word}

theorem decode_eq_nop_iff : decode w = .ok .nop ↔ w = 0 := by
  rw [decode_eq_ok_iff, ← encode_eq_iff]
  exact eq_comm

theorem eq_nop_of_opcode_zero {i : Instr} (h : decode w = .ok i) (hop : bitsOf w 63 60 = 0) : i = .nop := by
  have hfields := decode_eq_ok_iff.1 h
  cases i with
  | nop => rfl
  | _ =>
    obtain ⟨hop', -⟩ := hfields
    omega

theorem opcode_of_decode_error {x : DecodeError} (h : decode w = .error x) : x.op.toNat = bitsOf w 63 60 := by
  rw [op_of_decode_error h, opcodeOf_toNat]

end

/-! ### The statements -/

/-- Settles O10: the outcome of an illegal word, whichever agent presents it. -/
theorem illegalCommandIsDiscarded : Obligations.IllegalCommandIsDiscarded := by
  intro s e c rest x hv he hr hc hx
  obtain ⟨-, herror, -⟩ := illegalWordsAreExactlyTheReservedOnes c.word
  obtain ⟨-, hstep⟩ := herror x hx
  exact hstep s e c.agent rest hv he hr hc

/-- Settles O9: the idle edge clears the strobe. -/
theorem silentPortsIdle : Obligations.SilentPortsIdle :=
  fun _ hv he => step_of_no_edges hv he

/-- Settles O20: NOP clears the strobe, and a word of opcode 0 is a NOP or has an error that carries the opcode. -/
theorem nopWritesTheStrobeOnly : Obligations.NopWritesTheStrobeOnly := by
  refine ⟨fun s hv => exec_of_valid .nop hv, fun w => ⟨decode_eq_nop_iff, fun hop hne => ?_⟩⟩
  cases hd : decode w with
  | error x => exact ⟨x, rfl, BitVec.eq_of_toNat_eq ((opcode_of_decode_error hd).trans hop)⟩
  | ok i =>
    obtain rfl := eq_nop_of_opcode_zero hd hop
    exact absurd (decode_eq_nop_iff.1 hd) hne

end Sys2Proof.Machine
end

section
/-! PROOFS. 60_exceptions.md: a sensor fault acts on the torque alone (R222). -/

namespace Sys2Proof.Machine

/-! ### The monitor's registers beside the rest of a CYCLE -/

/-- Step 4 of a CYCLE neither reads nor writes the monitor. -/
theorem seqEval_setAcc (s : State) (x : Accelerator) (c : Bool) : seqEval (setAcc s x) c = setAcc (seqEval s c) x := by
  rw [seqEval_eq, seqEval_eq]
  rfl

/-- Step 5 of a CYCLE reads the monitor for the forwarded torque alone. -/
theorem linkOut_setAcc (s : State) (x : Accelerator) (batt : BitVec 16) :
    linkOut (setAcc s x) batt =
      { linkOut s batt with
        acc := x
        link := { (linkOut s batt).link with torque := (linkOut (setAcc s x) batt).link.torque } } := rfl

theorem beforeSequencer_setAcc (drv sdc : Bool) (sb sa sb' sa' : BitVec 16) (s : State) (x : Accelerator) :
    beforeSequencer drv sdc sb' sa' (setAcc s x) =
      setAcc (beforeSequencer drv sdc sb sa s) (accEval s.params x sa' sb') := rfl

/-- Two CYCLEs from states that differ in the monitor only, over any samples, differ in the monitor and the forwarded
torque only. -/
theorem controlCycle_setAcc (drv sdc : Bool) (batt sb sa sb' sa' : BitVec 16) (s : State) (x : Accelerator) :
    controlCycle drv sdc batt sb' sa' (setAcc s x) =
      { controlCycle drv sdc batt sb sa s with
        acc := accEval s.params x sa' sb'
        link := { (controlCycle drv sdc batt sb sa s).link with
          torque := (controlCycle drv sdc batt sb' sa' (setAcc s x)).link.torque } } := by
  rw [controlCycle_eq, controlCycle_eq, beforeSequencer_setAcc drv sdc sb sa, seqEval_setAcc]
  exact linkOut_setAcc ..

theorem accEval_torque_of_fault {p : Params} (hp : p.Valid) {x : Accelerator} {sa sb : BitVec 16}
    (h : (accEval p x sa sb).fault = true) : (accEval p x sa sb).torque = 0 := by
  obtain ⟨htorque, -⟩ := accEval_inRange x sa sb hp
  exact htorque h

/-! ### The statement -/

/-- Settles O52: the monitor enters a CYCLE by the forwarded torque alone, which is 0 with its own under a fault. -/
theorem sensorFaultOnlyZeroesTheTorque : Obligations.SensorFaultOnlyZeroesTheTorque := by
  intro s s' drv sdc batt sb sa sb' sa' hv hs'
  obtain ⟨x, rfl⟩ : ∃ x, s' = setAcc s x := ⟨_, hs'⟩
  have hsame := controlCycle_setAcc drv sdc batt sb sa sb' sa' s x
  refine ⟨_, _, exec_of_valid (.cycle ..) hv, exec_of_valid (.cycle ..) hv, (congrArg State.seq hsame :),
    (congrArg State.drv hsame :), (congrArg State.sdc hsame :), (congrArg State.wd hsame :), (congrArg State.link hsame :),
    fun hfault => ⟨?_, cycle_linkTorque_of_fault rfl hv hfault⟩,
    _, exec_of_valid (.accSet ..) hv, rfl, rfl, rfl, rfl, accEval_torque_of_fault hv⟩
  rw [effect_acc] at hfault ⊢
  exact accEval_torque_of_fault hv hfault

end Sys2Proof.Machine
end

section
/-! PROOFS. 70_reset_and_hazards.md: what a reset edge loads, and the invariants at reset (R250, R251). -/

namespace Sys2Proof.Machine

/-! ### The reset edge -/

/-- A reset edge ignores its command port (R250). -/
theorem step_of_reset_edge {s : State} {e : Edge} {rest : List Edge} (hv : s.params.Valid) (he : s.edges = e :: rest)
    (hr : e.rst = true) : step s = .next (State.resetWith s.params rest) := by
  obtain ⟨hreset, -⟩ := edgeDoesOneOfFourInPriorityOrder s e rest hv he
  exact hreset hr

/-! ### The invariants at reset -/

theorem flagsFollowState_reset : FlagsFollowState Sequencer.reset := ⟨rfl, rfl, rfl⟩

/-- The registers that R60 bounds are 0 at reset, within every bound, even that of a parameter record that R11 excludes. -/
theorem monitorInRange_reset (p : Params) : MonitorInRange p Accelerator.reset :=
  ⟨fun _ => rfl, Nat.zero_le _, Nat.zero_le _, Nat.zero_le _⟩

theorem invariants_resetWith (p : Params) (es : List Edge) : Invariants (State.resetWith p es) :=
  ⟨driveGated_of_flagsFollowState flagsFollowState_reset, flagsFollowState_reset, monitorInRange_reset p⟩

theorem requestHasCause_reset : RequestHasCause Watchdog.reset := rfl

theorem causeOnlyInShutdown_reset : CauseOnlyInShutdown Sequencer.reset := rfl

/-! ### The statements -/

/-- Settles O11: the next state is the reset state, whose registers are read off one by one. -/
theorem resetEdgeLoadsEveryResetValue : Obligations.ResetEdgeLoadsEveryResetValue := by
  intro s e rest hv he hr
  refine ⟨State.resetWith s.params rest, step_of_reset_edge hv he hr, ?_⟩
  simp [Debouncer.reset, Accelerator.reset, Watchdog.reset, Sequencer.reset, Link.reset, ErrorCapture.reset]

/-- Settles O57: each invariant speaks of one component, and holds of that component's reset values. -/
theorem invariantsHoldAfterReset : Obligations.InvariantsHoldAfterReset :=
  ⟨fun p es => ⟨invariants_resetWith p es, requestHasCause_reset, causeOnlyInShutdown_reset⟩,
    invariants_resetWith Params.reference []⟩

end Sys2Proof.Machine
end
